-- ==== Sys2Proof/Machine/Literals.lean ====
section
/-! DEFINITION. Machine/Literals.lean: the numeric literals of the source, one named constant each, so that
a corrected literal changes one definition (spec/00_scope.md R5(b), R7; 93_implementation_defined.md
U18). The constants that a type mentions are abbreviations. -/

namespace Sys2Proof.Machine

/-- `NUM_TRACKS`. -/
abbrev numTracks : Nat := 4

/-- `NUM_VOICES`. -/
abbrev numVoices : Nat := 8

/-- `MAX_STEPS`. -/
def maxSteps : Nat := 16

/-- `DIV_RATIO[0..4]` (10_state.md R27, 41_sequencer.md R123). -/
def divRatios : List Nat := [16, 8, 4, 2, 1]

/-- The largest division index. -/
def divIndexMax : Nat := divRatios.length - 1

/-- `STEP_CYCLE`: `stepCounter` runs 1 to 16 (41_sequencer.md R121). -/
def stepCycle : Nat := 16

/-- `PPQN` (42_transport.md R133). -/
def ppqn : Nat := 24

/-- `PULSES_PER_TICK` (42_transport.md R133). -/
def pulsesPerTick : Nat := 3

/-- `TICK_CONST_US` (42_transport.md R136). -/
def tickConstUs : Nat := 15000000

/-- `DECAY_FACTOR` = 0.99 as binary32 (43_voice.md R153). -/
def decayFactor : BitVec 32 := 0x3F7D70A4

/-- `SAMPLE_SCALE`, a power of two (43_voice.md R162). -/
def sampleScale : Nat := 32768

/-- 1 / `SAMPLE_SCALE` as binary32: the exponent field that stands for that power of two, no fraction. -/
def sampleScaleInverse : BitVec 32 := BitVec.ofNat 32 ((127 - Nat.log2 sampleScale) * 2 ^ 23)

/-- `PAN_POSITIONS` (43_voice.md R158). -/
abbrev panPositions : Nat := 19

/-- The largest pan index. -/
def panMax : Nat := panPositions - 1

end Sys2Proof.Machine
end

