-- ==== Sys2Proof/Word.lean ====
section
/-! DEFINITION. Word.lean: the words that cross the block's ports, and the events as they arrive there,
before any decoding (spec/20_memory.md R55, spec/30_encoding.md R70). -/

namespace Sys2Proof

/-- One byte of the list that holds the sample memory. -/
abbrev Byte := BitVec 8

/-- A bus data word, u32 (20_memory.md R55). -/
abbrev Word := BitVec 32

/-- A bus word address, u24 (20_memory.md R55). -/
abbrev WordAddr := BitVec 24

/-- A binary32 value as its bit pattern (00_scope.md R11, 20_memory.md R56). -/
abbrev F32 := BitVec 32

/-- One stored sample, s16 (10_state.md R35). -/
abbrev Sample := BitVec 16

/-- A track number t, 0 to 3 (10_state.md R22). -/
abbrev TrackId := Fin Machine.numTracks

/-- A voice number v, 0 to 7 (10_state.md R32). -/
abbrev VoiceId := Fin Machine.numVoices

/-- One event as the environment presents it: the five formats of 30_encoding.md R70, and the reset
input of 70_reset_and_hazards.md R220. `cmd32 d` and `xport8 c` are the bus writes of `d` to CMD and of
`c` to XPORT, presented in their own formats; `busW` carries any bus write, those two among them
(assumption log 3). -/
inductive Input where
  /-- CMD32: a command word. -/
  | cmd32 (d : Word)
  /-- XPORT8: a transport event code. -/
  | xport8 (c : BitVec 8)
  /-- BUSW: a bus write of `d` to word `wa`. -/
  | busW (wa : WordAddr) (d : Word)
  /-- BUSR: a bus read of word `wa`. -/
  | busR (wa : WordAddr)
  /-- STROBE: one microsecond of the time base. -/
  | usStrobe
  /-- STROBE: the audio sink asks for the next output sample. -/
  | sampleReq
  /-- The reset input, asserted between two events. -/
  | reset
deriving DecidableEq, Repr

end Sys2Proof
end

