-- ==== Sys2Proof/Syntax.lean ====
section
/-! DEFINITION. Syntax.lean: the events of spec/opcode_table.json as syntax, one constructor per row, in
the table's order. Bits that 30_encoding.md R72 has a format ignore are not part of an instruction
(assumption log 12). -/

namespace Sys2Proof

/-- One constructor per row of spec/opcode_table.json. -/
inductive Instr where
  -- CMD32 (30_encoding.md R73)
  | nop
  /-- `dec` is `imm[0]`: false is +1, true is -1 (30_encoding.md R75). -/
  | edit (t : TrackId) (dec : Bool)
  /-- `m` is `imm[1:0]`; 3 is reserved (30_encoding.md R76). -/
  | setMode (t : TrackId) (m : BitVec 2)
  | setDiv (t : TrackId) (k : BitVec 16)
  | setHold (t : TrackId) (h : Bool)
  | setLength (t : TrackId) (k : BitVec 16)
  | setPulses (t : TrackId) (k : BitVec 16)
  | setRotation (t : TrackId) (k : BitVec 16)
  | trigger (v : VoiceId)
  | reserved9
  | reservedA
  | reservedB
  | reservedC
  | reservedD
  | reservedE
  | reservedF
  -- XPORT8 (30_encoding.md R78, R79)
  | clock
  | start
  | cont
  | stop
  | xportReserved (c : BitVec 8)
  -- BUSW (44_host_bus.md R170)
  | wrCmd (d : Word)
  | wrXport (d : Word)
  | wrBpm (d : Word)
  | wrVctrl (v : VoiceId) (d : Word)
  | wrVlen (v : VoiceId) (d : Word)
  | wrVgain (v : VoiceId) (d : Word)
  | wrVpan (v : VoiceId) (d : Word)
  | wrSampleV0 (i : BitVec 20) (d : Word)
  | wrSampleV1 (i : BitVec 20) (d : Word)
  | wrSampleV2 (i : BitVec 20) (d : Word)
  | wrSampleV3 (i : BitVec 20) (d : Word)
  | wrSampleV4 (i : BitVec 20) (d : Word)
  | wrSampleV5 (i : BitVec 20) (d : Word)
  | wrSampleV6 (i : BitVec 20) (d : Word)
  | wrSampleV7 (i : BitVec 20) (d : Word)
  -- BUSR (44_host_bus.md R171)
  | rdBpm
  | rdTstatus
  | rdNowUs
  | rdLastTickUs
  | rdConfig
  | rdMaxsmp
  | rdTrkCfg (t : TrackId)
  | rdTrkMask (t : TrackId)
  | rdVctrl (v : VoiceId)
  | rdVlen (v : VoiceId)
  | rdVgain (v : VoiceId)
  | rdVpan (v : VoiceId)
  | rdVpos (v : VoiceId)
  | rdVdecay (v : VoiceId)
  | rdSampleV0 (i : BitVec 20)
  | rdSampleV1 (i : BitVec 20)
  | rdSampleV2 (i : BitVec 20)
  | rdSampleV3 (i : BitVec 20)
  | rdSampleV4 (i : BitVec 20)
  | rdSampleV5 (i : BitVec 20)
  | rdSampleV6 (i : BitVec 20)
  | rdSampleV7 (i : BitVec 20)
  -- STROBE (30_encoding.md R81)
  | usStrobe
  | sampleReq
deriving DecidableEq, Repr

end Sys2Proof
end

