-- ==== Sys2Proof/WellFormed.lean ====
section
/-! DEFINITION. WellFormed.lean: which terms of `Instr` are instructions. Operand widths are in the
types; what remains is that the row XPORT_RESERVED stands only for codes no other row names
(spec/30_encoding.md R79, "rows above take precedence" in the table). -/

namespace Sys2Proof

/-- The four codes of 30_encoding.md R78. -/
def assignedXportCodes : List (BitVec 8) := [0xF8, 0xFA, 0xFB, 0xFC]

/-- A reserved transport code is none of the four assigned ones; every other term is well formed. -/
def Instr.wellFormed : Instr → Bool
  | .xportReserved c => !assignedXportCodes.contains c
  | .nop | .edit _ _ | .setMode _ _ | .setDiv _ _ | .setHold _ _ | .setLength _ _ | .setPulses _ _
  | .setRotation _ _ | .trigger _ | .reserved9 | .reservedA | .reservedB | .reservedC | .reservedD
  | .reservedE | .reservedF | .clock | .start | .cont | .stop | .wrCmd _ | .wrXport _ | .wrBpm _
  | .wrVctrl _ _ | .wrVlen _ _ | .wrVgain _ _ | .wrVpan _ _ | .wrSampleV0 _ _ | .wrSampleV1 _ _
  | .wrSampleV2 _ _ | .wrSampleV3 _ _ | .wrSampleV4 _ _ | .wrSampleV5 _ _ | .wrSampleV6 _ _
  | .wrSampleV7 _ _ | .rdBpm | .rdTstatus | .rdNowUs | .rdLastTickUs | .rdConfig | .rdMaxsmp
  | .rdTrkCfg _ | .rdTrkMask _ | .rdVctrl _ | .rdVlen _ | .rdVgain _ | .rdVpan _ | .rdVpos _
  | .rdVdecay _ | .rdSampleV0 _ | .rdSampleV1 _ | .rdSampleV2 _ | .rdSampleV3 _ | .rdSampleV4 _
  | .rdSampleV5 _ | .rdSampleV6 _ | .rdSampleV7 _ | .usStrobe | .sampleReq => true

end Sys2Proof
end

