-- ==== Sys2Proof/Decode.lean ====
section
/-! DEFINITION. Decode.lean: from an event as it arrives to the row it is, and back. Decoding is total
(spec/30_encoding.md R82); what no row of the table stands for is rejected by name, and Step.lean gives
it the effect the spec gives it. -/

namespace Sys2Proof

/-- An event that is no row of the opcode table, by name. -/
inductive Unlisted where
  /-- A bus write to a read-only or unmapped word: ignored (44_host_bus.md R170). -/
  | ignoredWrite (wa : WordAddr)
  /-- A bus read of a write-only word: reads 0 (20_memory.md R60, 44_host_bus.md R171). -/
  | writeOnlyRead (wa : WordAddr)
  /-- A bus read of an unmapped word: reads 0 (20_memory.md R65, 44_host_bus.md R171). -/
  | unmappedRead (wa : WordAddr)
  /-- The reset input (70_reset_and_hazards.md R220). -/
  | resetInput
deriving DecidableEq, Repr

/-! ## The fields of the formats -/

/-- A track number from its two bits. -/
def trackOfBits (b : BitVec 2) : TrackId := ⟨b.toNat, b.isLt⟩

/-- A voice number from its three bits. -/
def voiceOfBits (b : BitVec 3) : VoiceId := ⟨b.toNat, b.isLt⟩

/-- The two bits of a track number. -/
def bitsOfTrack (t : TrackId) : BitVec 2 := BitVec.ofNat 2 t.val

/-- The three bits of a voice number. -/
def bitsOfVoice (v : VoiceId) : BitVec 3 := BitVec.ofNat 3 v.val

/-- `op`, bits 31..28 of a command word (30_encoding.md R71). -/
def cmdOp (d : Word) : BitVec 4 := d.extractLsb' 28 4

/-- `t = tgt[1:0]`, bits 25..24 (30_encoding.md R71). -/
def cmdTrack (d : Word) : TrackId := trackOfBits (d.extractLsb' 24 2)

/-- `v = tgt[2:0]`, bits 26..24 (30_encoding.md R71). -/
def cmdVoice (d : Word) : VoiceId := voiceOfBits (d.extractLsb' 24 3)

/-- `imm`, bits 15..0, always unsigned (30_encoding.md R71, R77). -/
def cmdImm (d : Word) : BitVec 16 := d.extractLsb' 0 16

/-- `imm[0]` (30_encoding.md R75). -/
def cmdFlag (d : Word) : Bool := d.getLsbD 0

/-- `imm[1:0]` (30_encoding.md R76). -/
def cmdMode (d : Word) : BitVec 2 := d.extractLsb' 0 2

/-- `{op, tgt, 0, imm}` (30_encoding.md R71). -/
def packCmd (op tgt : BitVec 4) (imm : BitVec 16) : Word := op ++ tgt ++ 0#8 ++ imm

/-- The region `wa[23:20]` (20_memory.md R59). -/
def regionOf (wa : WordAddr) : BitVec 4 := wa.extractLsb' 20 4

/-- The offset `wa[19:0]` inside a region (20_memory.md R59). -/
def offsetOf (wa : WordAddr) : BitVec 20 := wa.extractLsb' 0 20

/-- The voice block of 0x00100 + 8v + k, bits 23..6 of the address (20_memory.md R60). -/
def isVoiceReg (wa : WordAddr) : Bool := wa.extractLsb' 6 18 == 0x4#18

/-- The voice v of the address 0x00100 + 8v + k. -/
def voiceRegVoice (wa : WordAddr) : VoiceId := voiceOfBits (wa.extractLsb' 3 3)

/-- The register k of the address 0x00100 + 8v + k. -/
def voiceRegIndex (wa : WordAddr) : BitVec 3 := wa.extractLsb' 0 3

/-- The track block of 0x00010 + 2t + k, bits 23..3 of the address (20_memory.md R60). -/
def isTrackReg (wa : WordAddr) : Bool := wa.extractLsb' 3 21 == 0x2#21

/-- The track t of the address 0x00010 + 2t + k. -/
def trackRegTrack (wa : WordAddr) : TrackId := trackOfBits (wa.extractLsb' 1 2)

/-- The register k of the address 0x00010 + 2t + k: false TRKt_CFG, true TRKt_MASK. -/
def trackRegMask (wa : WordAddr) : Bool := wa.getLsbD 0

/-- The address 0x00100 + 8v + k (20_memory.md R60). -/
def voiceRegAddr (v : VoiceId) (k : BitVec 3) : WordAddr := 0x4#18 ++ bitsOfVoice v ++ k

/-- The address 0x00010 + 2t + k (20_memory.md R60). -/
def trackRegAddr (t : TrackId) (mask : Bool) : WordAddr :=
  0x2#21 ++ bitsOfTrack t ++ BitVec.ofBool mask

/-- The address of index i in the sample window of region r (20_memory.md R64). -/
def sampleAddr (r : BitVec 4) (i : BitVec 20) : WordAddr := r ++ i

/-! ## Decoding -/

/-- A command word by its `op` (30_encoding.md R73). -/
def decodeCmd32 (d : Word) : Instr :=
  match cmdOp d with
  | 0x0#4 => .nop
  | 0x1#4 => .edit (cmdTrack d) (cmdFlag d)
  | 0x2#4 => .setMode (cmdTrack d) (cmdMode d)
  | 0x3#4 => .setDiv (cmdTrack d) (cmdImm d)
  | 0x4#4 => .setHold (cmdTrack d) (cmdFlag d)
  | 0x5#4 => .setLength (cmdTrack d) (cmdImm d)
  | 0x6#4 => .setPulses (cmdTrack d) (cmdImm d)
  | 0x7#4 => .setRotation (cmdTrack d) (cmdImm d)
  | 0x8#4 => .trigger (cmdVoice d)
  | 0x9#4 => .reserved9
  | 0xA#4 => .reservedA
  | 0xB#4 => .reservedB
  | 0xC#4 => .reservedC
  | 0xD#4 => .reservedD
  | 0xE#4 => .reservedE
  | _ => .reservedF

/-- A transport event code (30_encoding.md R78, R79). -/
def decodeXport8 (c : BitVec 8) : Instr :=
  match c with
  | 0xF8#8 => .clock
  | 0xFA#8 => .start
  | 0xFB#8 => .cont
  | 0xFC#8 => .stop
  | _ => .xportReserved c

/-- A bus write to region 0 (20_memory.md R60, 44_host_bus.md R170). -/
def decodeRegisterWrite (wa : WordAddr) (d : Word) : Except Unlisted Instr :=
  if wa = 0x000000 then .ok (.wrCmd d)
  else if wa = 0x000001 then .ok (.wrXport d)
  else if wa = 0x000002 then .ok (.wrBpm d)
  else if isVoiceReg wa then
    match voiceRegIndex wa with
    | 0#3 => .ok (.wrVctrl (voiceRegVoice wa) d)
    | 1#3 => .ok (.wrVlen (voiceRegVoice wa) d)
    | 2#3 => .ok (.wrVgain (voiceRegVoice wa) d)
    | 3#3 => .ok (.wrVpan (voiceRegVoice wa) d)
    | _ => .error (.ignoredWrite wa)
  else .error (.ignoredWrite wa)

/-- A bus write by its region (44_host_bus.md R170). -/
def decodeBusW (wa : WordAddr) (d : Word) : Except Unlisted Instr :=
  match regionOf wa with
  | 0x0#4 => decodeRegisterWrite wa d
  | 0x1#4 => .ok (.wrSampleV0 (offsetOf wa) d)
  | 0x2#4 => .ok (.wrSampleV1 (offsetOf wa) d)
  | 0x3#4 => .ok (.wrSampleV2 (offsetOf wa) d)
  | 0x4#4 => .ok (.wrSampleV3 (offsetOf wa) d)
  | 0x5#4 => .ok (.wrSampleV4 (offsetOf wa) d)
  | 0x6#4 => .ok (.wrSampleV5 (offsetOf wa) d)
  | 0x7#4 => .ok (.wrSampleV6 (offsetOf wa) d)
  | 0x8#4 => .ok (.wrSampleV7 (offsetOf wa) d)
  | _ => .error (.ignoredWrite wa)

/-- A bus read in region 0 (20_memory.md R60, 44_host_bus.md R171). -/
def decodeRegisterRead (wa : WordAddr) : Except Unlisted Instr :=
  if wa = 0x000000 ∨ wa = 0x000001 then .error (.writeOnlyRead wa)
  else if wa = 0x000002 then .ok .rdBpm
  else if wa = 0x000003 then .ok .rdTstatus
  else if wa = 0x000004 then .ok .rdNowUs
  else if wa = 0x000005 then .ok .rdLastTickUs
  else if wa = 0x000006 then .ok .rdConfig
  else if wa = 0x000007 then .ok .rdMaxsmp
  else if isTrackReg wa then
    .ok (if trackRegMask wa then .rdTrkMask (trackRegTrack wa) else .rdTrkCfg (trackRegTrack wa))
  else if isVoiceReg wa then
    match voiceRegIndex wa with
    | 0#3 => .ok (.rdVctrl (voiceRegVoice wa))
    | 1#3 => .ok (.rdVlen (voiceRegVoice wa))
    | 2#3 => .ok (.rdVgain (voiceRegVoice wa))
    | 3#3 => .ok (.rdVpan (voiceRegVoice wa))
    | 4#3 => .ok (.rdVpos (voiceRegVoice wa))
    | 5#3 => .ok (.rdVdecay (voiceRegVoice wa))
    | _ => .error (.unmappedRead wa)
  else .error (.unmappedRead wa)

/-- A bus read by its region (44_host_bus.md R171). -/
def decodeBusR (wa : WordAddr) : Except Unlisted Instr :=
  match regionOf wa with
  | 0x0#4 => decodeRegisterRead wa
  | 0x1#4 => .ok (.rdSampleV0 (offsetOf wa))
  | 0x2#4 => .ok (.rdSampleV1 (offsetOf wa))
  | 0x3#4 => .ok (.rdSampleV2 (offsetOf wa))
  | 0x4#4 => .ok (.rdSampleV3 (offsetOf wa))
  | 0x5#4 => .ok (.rdSampleV4 (offsetOf wa))
  | 0x6#4 => .ok (.rdSampleV5 (offsetOf wa))
  | 0x7#4 => .ok (.rdSampleV6 (offsetOf wa))
  | 0x8#4 => .ok (.rdSampleV7 (offsetOf wa))
  | _ => .error (.unmappedRead wa)

/-- Every event is exactly one row, or is rejected by name (30_encoding.md R70, R82). -/
def decode : Input → Except Unlisted Instr
  | .cmd32 d => .ok (decodeCmd32 d)
  | .xport8 c => .ok (decodeXport8 c)
  | .busW wa d => decodeBusW wa d
  | .busR wa => decodeBusR wa
  | .usStrobe => .ok .usStrobe
  | .sampleReq => .ok .sampleReq
  | .reset => .error .resetInput

/-! ## Encoding -/

/-- The target field of a track command: `tgt[3:2]` are unused and written 0 (30_encoding.md R71). -/
def trackTarget (t : TrackId) : BitVec 4 := 0#2 ++ bitsOfTrack t

/-- The target field of TRIGGER: `tgt[3]` is unused and written 0 (30_encoding.md R71). -/
def voiceTarget (v : VoiceId) : BitVec 4 := 0#1 ++ bitsOfVoice v

/-- The event of an instruction, its unused bits 0 (30_encoding.md R71, R73, R78; 20_memory.md R59,
R60). -/
def encode : Instr → Input
  | .nop => .cmd32 (packCmd 0x0 0 0)
  | .edit t dec => .cmd32 (packCmd 0x1 (trackTarget t) (0#15 ++ BitVec.ofBool dec))
  | .setMode t m => .cmd32 (packCmd 0x2 (trackTarget t) (0#14 ++ m))
  | .setDiv t k => .cmd32 (packCmd 0x3 (trackTarget t) k)
  | .setHold t h => .cmd32 (packCmd 0x4 (trackTarget t) (0#15 ++ BitVec.ofBool h))
  | .setLength t k => .cmd32 (packCmd 0x5 (trackTarget t) k)
  | .setPulses t k => .cmd32 (packCmd 0x6 (trackTarget t) k)
  | .setRotation t k => .cmd32 (packCmd 0x7 (trackTarget t) k)
  | .trigger v => .cmd32 (packCmd 0x8 (voiceTarget v) 0)
  | .reserved9 => .cmd32 (packCmd 0x9 0 0)
  | .reservedA => .cmd32 (packCmd 0xA 0 0)
  | .reservedB => .cmd32 (packCmd 0xB 0 0)
  | .reservedC => .cmd32 (packCmd 0xC 0 0)
  | .reservedD => .cmd32 (packCmd 0xD 0 0)
  | .reservedE => .cmd32 (packCmd 0xE 0 0)
  | .reservedF => .cmd32 (packCmd 0xF 0 0)
  | .clock => .xport8 0xF8
  | .start => .xport8 0xFA
  | .cont => .xport8 0xFB
  | .stop => .xport8 0xFC
  | .xportReserved c => .xport8 c
  | .wrCmd d => .busW 0x000000 d
  | .wrXport d => .busW 0x000001 d
  | .wrBpm d => .busW 0x000002 d
  | .wrVctrl v d => .busW (voiceRegAddr v 0) d
  | .wrVlen v d => .busW (voiceRegAddr v 1) d
  | .wrVgain v d => .busW (voiceRegAddr v 2) d
  | .wrVpan v d => .busW (voiceRegAddr v 3) d
  | .wrSampleV0 i d => .busW (sampleAddr 1 i) d
  | .wrSampleV1 i d => .busW (sampleAddr 2 i) d
  | .wrSampleV2 i d => .busW (sampleAddr 3 i) d
  | .wrSampleV3 i d => .busW (sampleAddr 4 i) d
  | .wrSampleV4 i d => .busW (sampleAddr 5 i) d
  | .wrSampleV5 i d => .busW (sampleAddr 6 i) d
  | .wrSampleV6 i d => .busW (sampleAddr 7 i) d
  | .wrSampleV7 i d => .busW (sampleAddr 8 i) d
  | .rdBpm => .busR 0x000002
  | .rdTstatus => .busR 0x000003
  | .rdNowUs => .busR 0x000004
  | .rdLastTickUs => .busR 0x000005
  | .rdConfig => .busR 0x000006
  | .rdMaxsmp => .busR 0x000007
  | .rdTrkCfg t => .busR (trackRegAddr t false)
  | .rdTrkMask t => .busR (trackRegAddr t true)
  | .rdVctrl v => .busR (voiceRegAddr v 0)
  | .rdVlen v => .busR (voiceRegAddr v 1)
  | .rdVgain v => .busR (voiceRegAddr v 2)
  | .rdVpan v => .busR (voiceRegAddr v 3)
  | .rdVpos v => .busR (voiceRegAddr v 4)
  | .rdVdecay v => .busR (voiceRegAddr v 5)
  | .rdSampleV0 i => .busR (sampleAddr 1 i)
  | .rdSampleV1 i => .busR (sampleAddr 2 i)
  | .rdSampleV2 i => .busR (sampleAddr 3 i)
  | .rdSampleV3 i => .busR (sampleAddr 4 i)
  | .rdSampleV4 i => .busR (sampleAddr 5 i)
  | .rdSampleV5 i => .busR (sampleAddr 6 i)
  | .rdSampleV6 i => .busR (sampleAddr 7 i)
  | .rdSampleV7 i => .busR (sampleAddr 8 i)
  | .usStrobe => .usStrobe
  | .sampleReq => .sampleReq

/-! ## The words of the opcode table -/

/-- The bus access at address `wa` that the table's 24 bits stand for: the write where a row writes that
word, else the read; the table's bits hold no direction (assumption log 13). -/
def tableBusAccess (wa : WordAddr) : Input :=
  match decodeBusW wa 0 with
  | .ok _ => .busW wa 0
  | .error _ => .busR wa

/-- The event that the table's `nbits` bits `w` stand for: 32 bits a command word, 24 a bus address, 8 a
transport code, 0 a strobe (assumption log 13). -/
def tableInput (nbits w : Nat) : Option Input :=
  match nbits with
  | 32 => some (.cmd32 (BitVec.ofNat 32 w))
  | 24 => some (tableBusAccess (BitVec.ofNat 24 w))
  | 8 => some (.xport8 (BitVec.ofNat 8 w))
  | 0 => some (if w = 0 then .usStrobe else .sampleReq)
  | _ => none

/-- The instruction the decoder reads from the table's `nbits` bits `w`. -/
def decodeTableWord (nbits w : Nat) : Option Instr :=
  match tableInput nbits w with
  | some x => (decode x).toOption
  | none => none

end Sys2Proof
end

