-- ==== Sys2Proof/Config.lean ====
section
/-! DEFINITION. Config.lean: what an implementation fixes (the parameters of spec/00_scope.md R7) and the
free values, constants without a body that stand for what the spec leaves open. -/

namespace Sys2Proof

/-- `TICK_ORDER` (41_sequencer.md R119, R122; 90_conflicts.md C1). -/
inductive TickOrder where
  | advanceThenTest
  | testThenAdvance
deriving DecidableEq, Repr

/-- `INTERNAL_CLOCK_GATE` (42_transport.md R136, R141; 90_conflicts.md C2). -/
inductive ClockGate where
  | modeInternal
  | notRunning
deriving DecidableEq, Repr

/-- `EUCLID_BASE` (40_rhythm.md R101): the default formula, or a table that replaces it, whose row `s`
holds the mask of (s, p) at position `p`. -/
inductive EuclidBase where
  | formula
  | table (rows : List (List (BitVec 16)))
deriving DecidableEq, Repr

/-- The implementation parameters of 00_scope.md R7 that are not fixed by the source. A machine
carries them unchanged from reset on (assumption log 5). -/
structure Params where
  /-- `DECAY_FLOOR` (43_voice.md R153). -/
  decayFloor : F32
  /-- `FRAME_LEN` (43_voice.md R161): no rule of the block reads it. -/
  frameLen : Nat
  /-- `MAX_SAMPLES` (92_eei_decisions.md D23, D37). -/
  maxSamples : Nat
  /-- `VOICE_OF_TRACK` (41_sequencer.md R126). -/
  voiceOfTrack : Vector VoiceId Machine.numTracks
  /-- `TICK_ORDER`. -/
  tickOrder : TickOrder
  /-- `INTERNAL_CLOCK_GATE`. -/
  clockGate : ClockGate
  /-- `EUCLID_BASE`. -/
  euclidBase : EuclidBase
  /-- `PAN_L[0..18]` (43_voice.md R158). -/
  panL : Vector F32 Machine.panPositions
  /-- `PAN_R[0..18]` (43_voice.md R158). -/
  panR : Vector F32 Machine.panPositions
  /-- `BPM_RESET` (92_eei_decisions.md D34). -/
  bpmReset : BitVec 16
deriving DecidableEq, Repr

namespace Config

/-- Free value behind `DECAY_FLOOR`, which 92_eei_decisions.md D20 leaves OPEN (assumption log 6). -/
opaque decayFloorChoice : Nat

/-- Free value behind `FRAME_LEN`, which 92_eei_decisions.md D22 leaves OPEN (assumption log 7). -/
opaque frameLenChoice : Nat

/-- Free value: what a byte of the sample memory holds that nothing has written since a reset, for the
number of resets so far and the byte's place (93_implementation_defined.md U1; assumption log 8). -/
opaque unwrittenByte : Nat → Nat → Byte

/-- Free value: the bits of a NaN that an addition answers (assumption log 10). -/
opaque addNaNBits : F32 → F32 → Word

/-- Free value: the bits of a NaN that a multiplication answers (assumption log 10). -/
opaque mulNaNBits : F32 → F32 → Word

/-- Free value: `Generate` outside its domain (93_implementation_defined.md U17; assumption log 11). -/
opaque generateOutside : Nat → Nat → Nat → BitVec 16

/-- Free value: `DIV_RATIO` at an index above 4 (assumption log 11). -/
opaque divRatioOutside : Nat → Nat

/-- Free value: `PAN_L` at an index above 18 (assumption log 11). -/
opaque panLOutside : Nat → F32

/-- Free value: `PAN_R` at an index above 18 (assumption log 11). -/
opaque panROutside : Nat → F32

end Config

end Sys2Proof
end

