-- ==== Sys2Proof/Machine/Constants.lean ====
section
/-! DEFINITION. Machine/Constants.lean: the default of every decision row of spec/00_scope.md R7, and the
tables looked up at an index. -/

namespace Sys2Proof.Machine

/-- The largest value of `tp.bpm` (42_transport.md R137). -/
def bpmMax : Nat := 65535

/-- `DIV_RATIO[k]` (10_state.md R27, 41_sequencer.md R123); an index without a ratio is never stored
(assumption log 11). -/
def divRatio (k : BitVec 3) : Nat :=
  match divRatios[k.toNat]? with
  | some r => r
  | none => Config.divRatioOutside k.toNat

/-- The default `PAN_L` (43_voice.md R158). -/
def panLDefault : Vector F32 panPositions := #v[
  0x3F800000, 0x3F7F069E, 0x3F7C1C5C, 0x3F7746EA, 0x3F708FB2, 0x3F6803CA, 0x3F5DB3D7,
  0x3F51B3F3, 0x3F441B7D, 0x3F3504F3, 0x3F248DBB, 0x3F12D5E8, 0x3F000000, 0x3ED8616C,
  0x3EAF1D44, 0x3E8483EE, 0x3E31D0D4, 0x3DB27EB6, 0x00000000]

/-- The default `PAN_R` (43_voice.md R158). -/
def panRDefault : Vector F32 panPositions := #v[
  0x00000000, 0x3DB27EB6, 0x3E31D0D4, 0x3E8483EE, 0x3EAF1D44, 0x3ED8616C, 0x3F000000,
  0x3F12D5E8, 0x3F248DBB, 0x3F3504F3, 0x3F441B7D, 0x3F51B3F3, 0x3F5DB3D7, 0x3F6803CA,
  0x3F708FB2, 0x3F7746EA, 0x3F7C1C5C, 0x3F7F069E, 0x3F800000]

/-- `DECAY_FLOOR`: free among the positive normal binary32 values below 1.0 (92_eei_decisions.md D20;
assumption log 6). -/
def decayFloorFree : F32 := BitVec.ofNat 32 (0x00800000 + Config.decayFloorChoice % 0x3F000000)

/-- `FRAME_LEN`: free among the positive integers (92_eei_decisions.md D22; assumption log 7). -/
def frameLenFree : Nat := Config.frameLenChoice + 1

/-- Every decision row of 00_scope.md R7 at its default, the OPEN rows free (R8; assumption log 5). -/
def defaultParams : Params where
  decayFloor := decayFloorFree
  frameLen := frameLenFree
  maxSamples := 65536
  voiceOfTrack := #v[0, 1, 2, 3]
  tickOrder := .advanceThenTest
  clockGate := .modeInternal
  euclidBase := .formula
  panL := panLDefault
  panR := panRDefault
  bpmReset := 120

/-- `PAN_L[p]`; a pan index above 18 is never stored (assumption log 11). -/
def panLAt (p : Params) (i : BitVec 5) : F32 :=
  (p.panL[i.toNat]?).getD (Config.panLOutside i.toNat)

/-- `PAN_R[p]`; a pan index above 18 is never stored (assumption log 11). -/
def panRAt (p : Params) (i : BitVec 5) : F32 :=
  (p.panR[i.toNat]?).getD (Config.panROutside i.toNat)

end Sys2Proof.Machine
end

