-- ==== Sys2Proof/Machine/State.lean ====
section
/-! DEFINITION. Machine/State.lean: every piece of state spec/10_state.md gives the block, as plain data,
and the state after reset (R52, spec/70_reset_and_hazards.md R220). -/

namespace Sys2Proof.Machine

/-- `editMode` (10_state.md R23): the value 3 is never stored, so it is no constructor. -/
inductive EditMode where
  | density
  | offset
  | length
deriving DecidableEq, Repr

/-- `tp.mode` (10_state.md R43). -/
inductive ClockMode where
  | internal
  | external
deriving DecidableEq, Repr

/-- The outcome of a trigger, as the TRIG record reports it (60_exceptions.md R205). -/
inductive TrigKind where
  | ignored
  | start
  | retrigger
deriving DecidableEq, Repr

/-- One output record, with the port it is driven on (60_exceptions.md R205). -/
inductive OutRecord where
  /-- Tick output: a tick ran with this `stepCounter`. -/
  | tick (sc : BitVec 5)
  /-- Trigger output: a gate reached voice `v`. -/
  | trig (v : VoiceId) (k : TrigKind)
  /-- Audio output: the next stereo output sample. -/
  | out (l r : F32)
  /-- Bus read data: the value a bus read returns. -/
  | rdata (d : Word)
deriving DecidableEq, Repr

/-- One track (10_state.md R22 to R30). -/
structure Track where
  editMode : EditMode
  loopLength : BitVec 5
  pulseCount : BitVec 4
  rotation : BitVec 4
  clockDivisionIndex : BitVec 3
  rhythmMask : BitVec 16
  activeStep : BitVec 4
  manualHold : Bool
deriving DecidableEq, Repr

/-- One voice (10_state.md R32 to R41); its `SampleRAM` is in `State.mem`. -/
structure Voice where
  enabled : Bool
  length : BitVec 21
  playbackPosition : BitVec 20
  gain : F32
  panIndex : BitVec 5
  isPlaying : Bool
  decayAmplitude : F32
  decayActive : Bool
deriving DecidableEq, Repr

/-- The transport (10_state.md R43 to R47). -/
structure Transport where
  mode : ClockMode
  running : Bool
  bpm : BitVec 16
  stepCounter : BitVec 5
  pulseCounter : BitVec 5
deriving DecidableEq, Repr

/-- The time base (10_state.md R48, R49). -/
structure TimeBase where
  nowUs : BitVec 32
  lastTickUs : BitVec 32
deriving DecidableEq, Repr

/-- The machine: the block's state, and five fields of the model's own (the parameters, the reset count
behind the unwritten sample memory, the events still to come, the records and the returned value of the
last event). -/
structure State where
  /-- The implementation parameters of 00_scope.md R7, which no event writes (assumption log 5). -/
  params : Params
  /-- `trk[0..3]`. -/
  tracks : Vector Track numTracks
  /-- `vce[0..7]`. -/
  voices : Vector Voice numVoices
  /-- `SampleRAM`: what events have written since the last reset (assumption log 8, 9). -/
  mem : List Host.Cell
  /-- How many resets have passed (assumption log 8). -/
  ramEpoch : Nat
  /-- `tp`. -/
  tp : Transport
  /-- `tb`. -/
  tb : TimeBase
  /-- The events presented and not yet performed, first come first (assumption log 1). -/
  inputs : List Input
  /-- The records that the event just performed drove on the tick, trigger and audio outputs, in order
  (60_exceptions.md R205; assumption log 2, 4). -/
  out : List OutRecord
  /-- The bus read data port: the value d of the record `RDATA(d)` of the event just performed, which is
  what a bus read returns (44_host_bus.md R171, 60_exceptions.md R205; assumption log 2, 4). -/
  readData : Option Word
deriving DecidableEq, Repr

/-- No constructor: the block raises no exception and rejects no event (60_exceptions.md R200), so
nothing raises a fault; safe (assumption log 16). -/
inductive Fault where
deriving DecidableEq, Repr

/-- Why a step has no meaning. -/
inductive Refusal where
  /-- An instruction without a meaning yet; raised only by an arm of `exec`, and no arm raises it; safe. -/
  | notModelled (mnemonic : String)
deriving DecidableEq, Repr

/-- A track after reset (10_state.md R52). -/
def trackReset : Track where
  editMode := .density
  loopLength := 16
  pulseCount := 0
  rotation := 0
  clockDivisionIndex := 4
  rhythmMask := 0
  activeStep := 0
  manualHold := false

/-- A voice after reset (10_state.md R52). -/
def voiceReset : Voice where
  enabled := false
  length := 0
  playbackPosition := 0
  gain := 0x3F800000
  panIndex := 9
  isPlaying := false
  decayAmplitude := 0
  decayActive := false

/-- The transport after reset (10_state.md R52). -/
def transportReset (bpm : BitVec 16) : Transport where
  mode := .internal
  running := false
  bpm := bpm
  stepCounter := 1
  pulseCounter := 0

/-- The time base after reset (10_state.md R52). -/
def timeBaseReset : TimeBase where
  nowUs := 0
  lastTickUs := 0

/-- The state a reset leaves (70_reset_and_hazards.md R220) of a machine with these parameters, after
this many earlier resets, with these events still to come. -/
def resetState (p : Params) (epoch : Nat) (inputs : List Input) : State where
  params := p
  tracks := Vector.replicate numTracks trackReset
  voices := Vector.replicate numVoices voiceReset
  mem := []
  ramEpoch := epoch
  tp := transportReset p.bpmReset
  tb := timeBaseReset
  inputs := inputs
  out := []
  readData := none

/-- The machine right after power-up reset (10_state.md R52, 70_reset_and_hazards.md R220, R221). -/
def State.reset : State := resetState defaultParams 0 []

end Sys2Proof.Machine
end

