-- ==== Sys2Proof/Machine/Flags.lean ====
section
/-! DEFINITION. Machine/Flags.lean: the block's one-bit fields (spec/10_state.md R50) and how they and
the other fields stand in the registers the bus reads (spec/20_memory.md R60 to R64). There are no
condition codes. -/

namespace Sys2Proof.Machine

/-- The bits of `editMode` (10_state.md R23). -/
def editModeBits : EditMode → BitVec 2
  | .density => 0
  | .offset => 1
  | .length => 2

/-- The bit of `tp.mode` (10_state.md R43). -/
def clockModeBit : ClockMode → Bool
  | .internal => false
  | .external => true

/-- The bit of `TICK_ORDER` in CONFIG (20_memory.md R62). -/
def tickOrderBit : TickOrder → Bool
  | .advanceThenTest => false
  | .testThenAdvance => true

/-- The bit of `INTERNAL_CLOCK_GATE` in CONFIG (20_memory.md R62). -/
def clockGateBit : ClockGate → Bool
  | .modeInternal => false
  | .notRunning => true

/-- TRKt_CFG (20_memory.md R61). -/
def trkCfgWord (k : Track) : Word :=
  0#4 ++ k.activeStep ++ k.rotation ++ k.pulseCount ++ 0#3 ++ k.loopLength
    ++ BitVec.ofBool k.manualHold ++ k.clockDivisionIndex ++ 0#2 ++ editModeBits k.editMode

/-- TRKt_MASK (20_memory.md R61). -/
def trkMaskWord (k : Track) : Word := 0#16 ++ k.rhythmMask

/-- TSTATUS (20_memory.md R62). -/
def tstatusWord (tp : Transport) : Word :=
  0#11 ++ tp.pulseCounter ++ 0#3 ++ tp.stepCounter ++ 0#6
    ++ BitVec.ofBool tp.running ++ BitVec.ofBool (clockModeBit tp.mode)

/-- CONFIG (20_memory.md R62). -/
def configWord (p : Params) : Word :=
  0#17 ++ BitVec.ofBool (clockGateBit p.clockGate) ++ BitVec.ofBool (tickOrderBit p.tickOrder)
    ++ BitVec.ofNat 5 maxSteps ++ BitVec.ofNat 4 numVoices ++ BitVec.ofNat 4 numTracks

/-- MAXSMP: `MAX_SAMPLES` in bits 20..0 (20_memory.md R60). -/
def maxsmpWord (p : Params) : Word := 0#11 ++ BitVec.ofNat 21 p.maxSamples

/-- BPM: `tp.bpm` in bits 15..0 (20_memory.md R60). -/
def bpmWord (tp : Transport) : Word := 0#16 ++ tp.bpm

/-- VCTRL_v as it reads: `{29'b0, decayActive, isPlaying, enabled}` (20_memory.md R63). -/
def vctrlWord (v : Voice) : Word :=
  0#29 ++ BitVec.ofBool v.decayActive ++ BitVec.ofBool v.isPlaying ++ BitVec.ofBool v.enabled

/-- VLEN_v (20_memory.md R60). -/
def vlenWord (v : Voice) : Word := 0#11 ++ v.length

/-- VPAN_v (20_memory.md R60). -/
def vpanWord (v : Voice) : Word := 0#27 ++ v.panIndex

/-- VPOS_v (20_memory.md R60). -/
def vposWord (v : Voice) : Word := 0#12 ++ v.playbackPosition

/-- A sample word as it reads: `sext_32` (20_memory.md R64). -/
def sampleWord (x : Sample) : Word := x.signExtend 32

end Sys2Proof.Machine
end

