-- ==== Sys2Proof/Machine/Float.lean ====
section
/-! DEFINITION. Machine/Float.lean: IEEE 754 binary32 with rounding to nearest, ties to even, subnormals
kept, no flags (spec/00_scope.md R11, 92_eei_decisions.md D19). A finite value is an integer number of
units of 2^-149; a sum is an integer of that unit, a product one of the unit 2^-298, so each operation
is exact on integers and is rounded once. -/

namespace Sys2Proof.Machine

/-- The sign bit, bit 31 (20_memory.md R56). -/
def f32sign (a : F32) : Bool := a.getLsbD 31

/-- The 31 bits below the sign: they order the magnitudes. -/
def f32mag (a : F32) : Nat := a.toNat % 0x80000000

/-- The exponent field, bits 30..23. -/
def f32exp (a : F32) : Nat := f32mag a / 0x800000

/-- The fraction field, bits 22..0. -/
def f32frac (a : F32) : Nat := f32mag a % 0x800000

/-- Not a number: all-ones exponent, non-zero fraction. -/
def f32isNaN (a : F32) : Bool := decide (0x7F800000 < f32mag a)

/-- Plus or minus infinity. -/
def f32isInf (a : F32) : Bool := f32mag a == 0x7F800000

/-- Neither infinite nor a NaN. -/
def f32isFinite (a : F32) : Bool := decide (f32mag a < 0x7F800000)

/-- The magnitude of a finite value in units of 2^-149. -/
def f32units (a : F32) : Nat :=
  if f32exp a = 0 then f32frac a else (0x800000 + f32frac a) * 2 ^ (f32exp a - 1)

/-- A finite value as an integer of units of 2^-149. -/
def f32int (a : F32) : Int := if f32sign a then -(f32units a : Int) else (f32units a : Int)

/-- A binary32 from its sign and its 31 lower bits. -/
def f32make (sign : Bool) (mag : Nat) : F32 :=
  BitVec.ofNat 32 ((if sign then 0x80000000 else 0) + mag)

/-- `n / 2^k` rounded to the nearest integer, ties to the even one. -/
def roundShift (n k : Nat) : Nat :=
  let q := n / 2 ^ k
  let r := 2 * (n % 2 ^ k)
  if 2 ^ k < r ∨ (r = 2 ^ k ∧ q % 2 = 1) then q + 1 else q

/-- How many bits of `n` lie below the last place of its binary32, where `n` counts units of
2^-(149 + g): all but 24 bits, and never fewer than `g`. -/
def droppedBits (n g : Nat) : Nat := max g (Nat.log2 n + 1 - 24)

/-- The 31 lower bits of the binary32 nearest to `n` units of 2^-(149 + g), ties to even; infinity from
2^128 - 2^103 on. Where the rounded significand reaches 2^24 the sum carries into the exponent. -/
def roundMag (n g : Nat) : Nat :=
  let k := droppedBits n g
  min ((k - g) * 0x800000 + roundShift n k) 0x7F800000

/-- A quiet NaN with free sign and payload (assumption log 10). -/
def quietNaN (bits : Word) : F32 := bits ||| 0x7FC00000

/-- IEEE 754 addition (00_scope.md R11). An exact zero sum is +0.0 unless both operands are -0.0. -/
def f32add (a b : F32) : F32 :=
  if f32isNaN a ∨ f32isNaN b then quietNaN (Config.addNaNBits a b)
  else if f32isInf a then
    if f32isInf b ∧ f32sign a ≠ f32sign b then quietNaN (Config.addNaNBits a b) else a
  else if f32isInf b then b
  else
    let z := f32int a + f32int b
    if z = 0 then f32make (f32sign a && f32sign b) 0
    else f32make (decide (z < 0)) (roundMag z.natAbs 0)

/-- IEEE 754 multiplication (00_scope.md R11). -/
def f32mul (a b : F32) : F32 :=
  let sign := f32sign a != f32sign b
  if f32isNaN a ∨ f32isNaN b then quietNaN (Config.mulNaNBits a b)
  else if f32isInf a ∨ f32isInf b then
    if f32mag a = 0 ∨ f32mag b = 0 then quietNaN (Config.mulNaNBits a b)
    else f32make sign 0x7F800000
  else f32make sign (roundMag (f32units a * f32units b) 149)

/-- `f32abs` clears the sign bit (00_scope.md R11). -/
def f32abs (a : F32) : F32 := f32make false (f32mag a)

/-- The key that orders numbers: the two zeros are equal. -/
def f32key (a : F32) : Int := if f32sign a then -(f32mag a : Int) else (f32mag a : Int)

/-- `f32gt`: ordered greater-than, false if either is a NaN (00_scope.md R11). -/
def f32gt (a b : F32) : Bool :=
  !f32isNaN a && !f32isNaN b && decide (f32key b < f32key a)

/-- `i2f`: an integer to binary32, exact for |n| ≤ 2^24 (00_scope.md R11). -/
def i2f (n : Int) : F32 := f32make (decide (n < 0)) (roundMag (n.natAbs * 2 ^ 149) 0)

/-- 1.0. -/
def f32one : F32 := 0x3F800000

/-- +0.0. -/
def f32zero : F32 := 0x00000000

end Sys2Proof.Machine
end

