-- ==== Sys2Proof/Machine/Operands.lean ====
section
/-! DEFINITION. Machine/Operands.lean: how an operand becomes a field's value. Out-of-range input is
clamped, never rejected (spec/60_exceptions.md R201, spec/30_encoding.md R77). -/

namespace Sys2Proof.Machine

/-- `clamp(v, lo, hi)` on integers (00_scope.md R9). -/
def clampInt (v lo hi : Int) : Int := min (max v lo) hi

/-- One detent of EDIT: +1, or -1 when `dec` (30_encoding.md R75). -/
def editDelta (dec : Bool) : Int := if dec then -1 else 1

/-- `clamp(k, 1, 16)` (41_sequencer.md R115). -/
def clampLength (k : Nat) : BitVec 5 := BitVec.ofNat 5 (min (max k 1) maxSteps)

/-- `min(k, loopLength - 1)` (41_sequencer.md R116, R117); `loopLength` is at least 1. -/
def clampStep (k : Nat) (len : BitVec 5) : BitVec 4 := BitVec.ofNat 4 (min k (len.toNat - 1))

/-- `clamp(x + delta, 0, loopLength - 1)` (41_sequencer.md R111). -/
def editStep (x : BitVec 4) (dec : Bool) (len : BitVec 5) : BitVec 4 :=
  BitVec.ofNat 4 (clampInt (x.toNat + editDelta dec) 0 (len.toNat - 1)).toNat

/-- `clamp(loopLength + delta, 1, 16)` (41_sequencer.md R111). -/
def editLength (len : BitVec 5) (dec : Bool) : BitVec 5 :=
  BitVec.ofNat 5 (clampInt (len.toNat + editDelta dec) 1 maxSteps).toNat

/-- `min(k, 4)` (41_sequencer.md R113). -/
def clampDivision (k : BitVec 16) : BitVec 3 := BitVec.ofNat 3 (min k.toNat divIndexMax)

/-- The edit mode of `imm[1:0]`; 3 is reserved (30_encoding.md R76). -/
def editModeOfBits (m : BitVec 2) : Option EditMode :=
  match m with
  | 0#2 => some .density
  | 1#2 => some .offset
  | 2#2 => some .length
  | _ => none

/-- `min(d, 65535)`, the whole word clamped (42_transport.md R137). -/
def clampBpm (d : Word) : BitVec 16 := BitVec.ofNat 16 (min d.toNat bpmMax)

/-- `min(d, MAX_SAMPLES)` (44_host_bus.md R174). -/
def clampVlen (maxSamples : Nat) (d : Word) : BitVec 21 := BitVec.ofNat 21 (min d.toNat maxSamples)

/-- `min(d, 18)` (44_host_bus.md R177). -/
def clampPan (d : Word) : BitVec 5 := BitVec.ofNat 5 (min d.toNat panMax)

/-- The gain a written word stores (44_host_bus.md R175): NaN or `<= 0.0` gives +0.0, `>= 1.0` gives
1.0, all else the word itself. -/
def clampGain (g : F32) : F32 :=
  if f32isNaN g ∨ f32key g ≤ f32key f32zero then f32zero
  else if f32key f32one ≤ f32key g then f32one
  else g

/-- A stored sample as binary32: `f32mul(i2f(s), 2^-15)` = s/32768 (43_voice.md R162). 95_test_vectors.md V7 has
0x3F7FFF00 for 32767 where s/32768 is 0x3F7FFE00; the rule is followed (DEDUCED, assumption log 22). -/
def normalize (x : Sample) : F32 := f32mul (i2f x.toInt) sampleScaleInverse

end Sys2Proof.Machine
end

