-- ==== Sys2Proof/Machine/Rhythm.lean ====
section
/-! DEFINITION. Machine/Rhythm.lean: the Rhythm Generator, a pure function from loop length, pulse count
and rotation to the 16-bit step mask (spec/40_rhythm.md). -/

namespace Sys2Proof.Machine

/-- Step i of the default pattern is set when `(i * p) mod s < p` (40_rhythm.md R101). -/
def euclidStep (s p i : Nat) : Bool := decide (i < s ∧ (i * p) % s < p)

/-- The mask whose bits below `MAX_STEPS` are `f 0`..`f 15`. -/
def maskOf (f : Nat → Bool) : BitVec 16 :=
  (List.range maxSteps).foldl (fun b i => if f i then b ||| (1#16 <<< i) else b) 0#16

/-- The default `EUCLID_BASE(s, p)` (40_rhythm.md R101). -/
def euclidFormula (s p : Nat) : BitVec 16 := maskOf (euclidStep s p)

/-- `EUCLID_BASE(s, p)` of the machine: the formula, or the table that replaces it (40_rhythm.md R101). -/
def euclidOf (base : EuclidBase) (s p : Nat) : BitVec 16 :=
  match base with
  | .formula => euclidFormula s p
  | .table rows => (rows.getD s []).getD p 0

/-- `RotL(m, r, s)`: the low `s` bits rotated left by `r` (40_rhythm.md R105). -/
def rotL (m : BitVec 16) (r s : Nat) : BitVec 16 :=
  BitVec.ofNat 16 (((m.toNat <<< r) ||| (m.toNat >>> (s - r))) % 2 ^ s)

/-- The domain of `Generate` (40_rhythm.md R100). -/
def inGenerateDomain (s p r : Nat) : Bool := decide (1 ≤ s ∧ s ≤ maxSteps ∧ p < s ∧ r < s)

/-- `Generate(s, p, r)` (40_rhythm.md R100); outside its domain, which no event reaches (R107), a free
value (assumption log 11). -/
def generate (base : EuclidBase) (s p r : Nat) : BitVec 16 :=
  if inGenerateDomain s p r then
    if p = 0 then 0 else rotL (euclidOf base s p) r s
  else Config.generateOutside s p r

/-! ## What a replacement of EUCLID_BASE must satisfy -/

/-- The steps below `s` that a mask sets, rising. -/
def setSteps (m : BitVec 16) (s : Nat) : List Nat := (List.range s).filter (fun i => m.getLsbD i)

/-- The circular gaps of a rising list of steps, for a loop of `s` steps whose first set step is `first`
(40_rhythm.md R104). -/
def gapsFrom (first s : Nat) : List Nat → List Nat
  | [] => []
  | [i] => [first + s - i]
  | i :: j :: rest => (j - i) :: gapsFrom first s (j :: rest)

/-- The circular gaps of a mask over `s` steps (40_rhythm.md R104). -/
def maskGaps (m : BitVec 16) (s : Nat) : List Nat :=
  gapsFrom ((setSteps m s).headD 0) s (setSteps m s)

/-- A mask that may stand for `EUCLID_BASE(s, p)`: p set steps (40_rhythm.md R103), none at or above `s`
(R106), and maximally even gaps (R104). -/
def legalBaseMask (s p : Nat) (m : BitVec 16) : Bool :=
  decide ((setSteps m s).length = p) && decide (m.toNat < 2 ^ s)
    && (maskGaps m s).all (fun g => g == s / p || g == s / p + 1)

/-- A replacement table every used entry of which is legal (40_rhythm.md R101). -/
def legalBase (base : EuclidBase) : Bool :=
  (List.range (maxSteps + 1)).all fun s => (List.range s).all fun p =>
    p == 0 || legalBaseMask s p (euclidOf base s p)

end Sys2Proof.Machine
end

