-- ==== Sys2Proof/Machine/Ops.lean ====
section
/-! DEFINITION. Machine/Ops.lean: the named operations over the block's state that events share. The
block raises no exception and has no return from one (spec/60_exceptions.md R200, R206), so there is no
operation that takes an exception. -/

namespace Sys2Proof.Machine

/-! ## Records (60_exceptions.md R205) -/

/-- `Emit(e)` (00_scope.md R10): the record goes to its port. RDATA has the bus read data port to itself;
the other records keep the order they are emitted in (60_exceptions.md R205; assumption log 4). -/
def State.emit (s : State) (r : OutRecord) : State :=
  match r with
  | .rdata d => { s with readData := some d }
  | .tick _ | .trig _ _ | .out _ _ => { s with out := s.out ++ [r] }

/-! ## Tracks and voices (00_scope.md R10) -/

/-- `trk[t]`. -/
def State.track (s : State) (t : TrackId) : Track := s.tracks[t]

/-- `trk[t] <- k`. -/
def State.setTrack (s : State) (t : TrackId) (k : Track) : State :=
  { s with tracks := s.tracks.set t k }

/-- `vce[v]`. -/
def State.voice (s : State) (v : VoiceId) : Voice := s.voices[v]

/-- `vce[v] <- x`. -/
def State.setVoice (s : State) (v : VoiceId) (x : Voice) : State :=
  { s with voices := s.voices.set v x }

/-! ## The sample memory -/

/-- What an unlisted address reads as: no value, since nothing has written it (assumption log 8). -/
def memUnlisted : Option Byte := none

/-- The byte listed at `a`, if any. -/
def memRead : List Host.Cell → Nat → Option Byte
  | [], _ => memUnlisted
  | c :: rest, a => if c.1 = a then some c.2 else memRead rest a

/-- The list with the byte at `a` written, addresses rising. -/
def memWrite : List Host.Cell → Nat → Byte → List Host.Cell
  | [], a, b => [(a, b)]
  | c :: rest, a, b =>
    if a < c.1 then (a, b) :: c :: rest
    else if a = c.1 then (a, b) :: rest
    else c :: memWrite rest a b

/-- The canonical form: addresses strictly rising. No entry can equal what an unlisted address reads as,
because that is no value. -/
def memWf : List Host.Cell → Bool
  | [] => true
  | [_] => true
  | c :: d :: rest => decide (c.1 < d.1) && memWf (d :: rest)

/-- One byte of the sample memory; a byte nothing has written since the last reset is a free value
(93_implementation_defined.md U1; assumption log 8). -/
def State.byteAt (s : State) (a : Nat) : Byte :=
  (memRead s.mem a).getD (Config.unwrittenByte s.ramEpoch a)

/-- The byte address of `SampleRAM[v][i]`: four times its word address ((v+1) << 20) + i (20_memory.md
R56, R59, R64; assumption log 9). -/
def sampleByteAddr (v : VoiceId) (i : BitVec 20) : Nat := 4 * ((v.val + 1) * 2 ^ 20 + i.toNat)

/-- `SampleRAM[v][i]`. -/
def State.sample (s : State) (v : VoiceId) (i : BitVec 20) : Sample :=
  s.byteAt (sampleByteAddr v i + 1) ++ s.byteAt (sampleByteAddr v i)

/-- `SampleRAM[v][i] <- x`. -/
def State.setSample (s : State) (v : VoiceId) (i : BitVec 20) (x : Sample) : State :=
  { s with
    mem := memWrite (memWrite s.mem (sampleByteAddr v i) (x.extractLsb' 0 8))
      (sampleByteAddr v i + 1) (x.extractLsb' 8 8) }

/-! ## Clamp-then-recompute (41_sequencer.md R110) -/

/-- `ClampRecompute` on one track. -/
def clampTrack (base : EuclidBase) (k : Track) : Track :=
  let p := clampStep k.pulseCount.toNat k.loopLength
  let r := clampStep k.rotation.toNat k.loopLength
  { k with
    pulseCount := p
    rotation := r
    activeStep := clampStep k.activeStep.toNat k.loopLength
    rhythmMask := generate base k.loopLength.toNat p.toNat r.toNat }

/-- An edit of track t, then `ClampRecompute(t)` (41_sequencer.md R110). -/
def State.editTrack (s : State) (t : TrackId) (f : Track → Track) : State :=
  s.setTrack t (clampTrack s.params.euclidBase (f (s.track t)))

/-! ## Trigger (43_voice.md R150) -/

/-- The voice and the kind of outcome after `Trigger`, where `x` is the sample at its position. -/
def triggerVoice (vc : Voice) (x : Sample) : Voice × TrigKind :=
  if vc.enabled then
    if vc.isPlaying then
      ({ vc with
          decayAmplitude := f32mul (normalize x) vc.gain
          decayActive := true
          playbackPosition := 0 }, .retrigger)
    else ({ vc with isPlaying := true }, .start)
  else (vc, .ignored)

/-- The sample at voice v's position. -/
def State.currentSample (s : State) (v : VoiceId) : Sample :=
  s.sample v (s.voice v).playbackPosition

/-- `Trigger(v)` (43_voice.md R150). -/
def State.trigger (s : State) (v : VoiceId) : State :=
  let r := triggerVoice (s.voice v) (s.currentSample v)
  (s.setVoice v r.1).emit (.trig v r.2)

/-! ## Tick (41_sequencer.md R119 to R124) -/

/-- The four tracks in the order a tick processes them (41_sequencer.md R126). -/
def trackIds : List TrackId := List.finRange numTracks

/-- The eight voices in the order a sample request renders them (43_voice.md R157). -/
def voiceIds : List VoiceId := List.finRange numVoices

/-- `activeStep` advanced by one, 0 at `loopLength` (41_sequencer.md R119). -/
def advanceTrack (k : Track) : Track :=
  let a := k.activeStep.toNat + 1
  { k with activeStep := if a = k.loopLength.toNat then 0 else BitVec.ofNat 4 a }

/-- The step-to-gate test of the active step (41_sequencer.md R120). -/
def gateOpen (k : Track) : Bool := k.rhythmMask.getLsbD k.activeStep.toNat || k.manualHold

/-- `VOICE_OF_TRACK(t)` (41_sequencer.md R126). -/
def State.voiceOf (s : State) (t : TrackId) : VoiceId := s.params.voiceOfTrack[t]

/-- Trigger track t's voice if its gate is open. -/
def State.gateTrack (s : State) (t : TrackId) : State :=
  if gateOpen (s.track t) then s.trigger (s.voiceOf t) else s

/-- Advance track t. -/
def State.advance (s : State) (t : TrackId) : State := s.setTrack t (advanceTrack (s.track t))

/-- The clock divider: does a tick at `stepCounter` = sc process this track (41_sequencer.md R119)? -/
def processedAt (sc : BitVec 5) (k : Track) : Bool := sc.toNat % divRatio k.clockDivisionIndex == 0

/-- What a tick does with track t, in the machine's `TICK_ORDER` (41_sequencer.md R119, R122). -/
def State.tickTrack (sc : BitVec 5) (s : State) (t : TrackId) : State :=
  if processedAt sc (s.track t) then
    match s.params.tickOrder with
    | .advanceThenTest => (s.advance t).gateTrack t
    | .testThenAdvance => (s.gateTrack t).advance t
  else s

/-- The next `stepCounter`: 16 wraps to 1 (41_sequencer.md R121). -/
def nextStepCounter (sc : BitVec 5) : BitVec 5 := if sc.toNat = stepCycle then 1 else sc + 1

/-- `Tick()` (41_sequencer.md R119, R122). -/
def State.tick (s : State) : State :=
  let sc := s.tp.stepCounter
  let s' := trackIds.foldl (State.tickTrack sc) (s.emit (.tick sc))
  { s' with tp := { s'.tp with stepCounter := nextStepCounter sc } }

/-- Track t's position back to 0. -/
def State.rewind (s : State) (t : TrackId) : State :=
  s.setTrack t { s.track t with activeStep := 0 }

/-- `StartSequence()` (41_sequencer.md R124). -/
def State.startSequence (s : State) : State :=
  (trackIds.foldl State.rewind { s with tp := { s.tp with stepCounter := 1 } }).tick

/-! ## The internal clock (42_transport.md R136) -/

/-- The gate of the internal clock (42_transport.md R136, R141). -/
def clockGateOpen (g : ClockGate) (tp : Transport) : Bool :=
  match g with
  | .modeInternal => tp.mode == .internal
  | .notRunning => !tp.running

/-- `15000000 div bpm` (42_transport.md R136, R138). -/
def tickInterval (bpm : BitVec 16) : Nat := tickConstUs / bpm.toNat

/-- Microseconds since the last internal tick, modulo 2^32 (42_transport.md R136, R142). -/
def elapsedUs (tb : TimeBase) : Nat := (tb.nowUs - tb.lastTickUs).toNat

/-- Does the check tick (42_transport.md R136, decision D18)? From it 42_transport.md R142 derives that the
first tick after the gate reopens comes 1 to `interval` strobes later. That follows but at one elapsed time,
2^32 - 1 at reopening, which wraps to 0 at the next strobe: there it is `interval` + 1 (assumption log 21). -/
def internalTickDue (s : State) : Bool :=
  clockGateOpen s.params.clockGate s.tp && s.tp.bpm != 0
    && decide (tickInterval s.tp.bpm ≤ elapsedUs s.tb)

/-- `InternalClockCheck()` (42_transport.md R136). -/
def State.internalClockCheck (s : State) : State :=
  if internalTickDue s then
    State.tick { s with tb := { s.tb with lastTickUs := s.tb.nowUs } }
  else s

/-! ## Rendering (43_voice.md R152, R157) -/

/-- Step 1 of `VoiceSample`, the decay tail: the voice after it and the accumulator (43_voice.md R152,
R153). -/
def decayStep (floor : F32) (vc : Voice) : Voice × F32 :=
  if vc.decayActive then
    if f32gt (f32abs vc.decayAmplitude) floor then
      let d := f32mul vc.decayAmplitude decayFactor
      ({ vc with decayAmplitude := d }, f32add f32zero d)
    else ({ vc with decayActive := false }, f32zero)
  else (vc, f32zero)

/-- Step 2 of `VoiceSample`, the playing note, for the sample `x` at its position (43_voice.md R152,
R156). -/
def playStep (vc : Voice) (acc : F32) (x : Sample) : Voice × F32 :=
  let a := f32mul (f32add acc (normalize x)) vc.gain
  let pos := vc.playbackPosition.toNat + 1
  if pos = vc.length.toNat then
    ({ vc with isPlaying := false, decayAmplitude := a, decayActive := true, playbackPosition := 0 }, a)
  else ({ vc with playbackPosition := BitVec.ofNat 20 pos }, a)

/-- `VoiceSample(v)` (43_voice.md R152): the voice after it, `audible`, and the accumulator. -/
def voiceSample (floor : F32) (vc : Voice) (x : Sample) : Voice × Bool × F32 :=
  if vc.enabled then
    let d := decayStep floor vc
    if vc.isPlaying then
      let r := playStep d.1 d.2 x
      (r.1, true, r.2)
    else (d.1, false, d.2)
  else (vc, false, f32zero)

/-- The pair of output sums of one sample request. -/
structure Mix where
  l : F32
  r : F32
deriving DecidableEq, Repr

/-- One voice's turn in a sample request (43_voice.md R157). -/
def State.renderVoice (m : State × Mix) (v : VoiceId) : State × Mix :=
  let s := m.1
  let y := voiceSample s.params.decayFloor (s.voice v) (s.currentSample v)
  let s' := s.setVoice v y.1
  if y.2.1 then
    (s', { l := f32add m.2.l (f32mul y.2.2 (panLAt s.params y.1.panIndex))
           r := f32add m.2.r (f32mul y.2.2 (panRAt s.params y.1.panIndex)) })
  else (s', m.2)

/-- `SAMPLE_REQ` (43_voice.md R157). -/
def State.render (s : State) : State :=
  let m := voiceIds.foldl State.renderVoice (s, { l := f32zero, r := f32zero })
  m.1.emit (.out m.2.l m.2.r)

/-! ## The bus (44_host_bus.md R171, R176) -/

/-- The end of every path of a bus read: `Emit(RDATA(value))`, `return value` (44_host_bus.md R171). No
field of the block changes, and no other record is driven (20_memory.md R66). -/
def State.answer (s : State) (d : Word) : State := s.emit (.rdata d)

/-- `WR_SAMPLE(v, i, d)` (44_host_bus.md R176). -/
def State.storeSample (s : State) (v : VoiceId) (i : BitVec 20) (d : Word) : State :=
  if i.toNat < s.params.maxSamples ∧ (s.voice v).enabled = false then
    s.setSample v i (d.extractLsb' 0 16)
  else s

/-- The answer of a read of an unmapped word: it reads as 0, which the read data port drives as of every
bus read (44_host_bus.md R171, 60_exceptions.md R205); no state changes and the list of records is left
empty (20_memory.md R65; assumption log 4). -/
def State.answerUnmapped (s : State) : State := s.answer 0

/-- The answer of a read of voice v's sample window: the sample, or an unmapped word's answer at an index
that does not exist (20_memory.md R64, 44_host_bus.md R171). -/
def State.answerWindow (s : State) (v : VoiceId) (i : BitVec 20) : State :=
  if i.toNat < s.params.maxSamples then s.answer (sampleWord (s.sample v i)) else s.answerUnmapped

/-! ## Reset (70_reset_and_hazards.md R220) -/

/-- The reset input: every field at its reset value, `SampleRAM` unspecified again, no record; the
parameters are the machine's and stay, and the events still to come are the environment's
(assumption log 14). -/
def State.applyReset (s : State) : State := resetState s.params (s.ramEpoch + 1) s.inputs

/-! ## Events to come (60_exceptions.md R203) -/

/-- The next event is taken: the rest stays, and the new event starts with no record on any
port. -/
def State.takeInput (s : State) (rest : List Input) : State :=
  { s with inputs := rest, out := [], readData := none }

/-- No event is presented: the block holds its state and drives no port (60_exceptions.md R213). -/
def State.idle (s : State) : State := { s with out := [], readData := none }

end Sys2Proof.Machine
end

