-- ==== Sys2Proof/Machine/BusRead.lean ====
section
/-! DEFINITION. Machine/BusRead.lean: the bus reads of spec/44_host_bus.md R171 (BUSR rows), and the bus
accesses no row of the table names. -/

namespace Sys2Proof.Machine

/-- RD_BPM (20_memory.md R60). -/
def execRdBpm (s : State) : Host.Outcome State Fault Refusal :=
  .next (s.answer (bpmWord s.tp))

/-- RD_TSTATUS (20_memory.md R62). -/
def execRdTstatus (s : State) : Host.Outcome State Fault Refusal :=
  .next (s.answer (tstatusWord s.tp))

/-- RD_NOW_US (20_memory.md R60). -/
def execRdNowUs (s : State) : Host.Outcome State Fault Refusal :=
  .next (s.answer s.tb.nowUs)

/-- RD_LAST_TICK_US (20_memory.md R60). -/
def execRdLastTickUs (s : State) : Host.Outcome State Fault Refusal :=
  .next (s.answer s.tb.lastTickUs)

/-- RD_CONFIG (20_memory.md R62). -/
def execRdConfig (s : State) : Host.Outcome State Fault Refusal :=
  .next (s.answer (configWord s.params))

/-- RD_MAXSMP (20_memory.md R60). -/
def execRdMaxsmp (s : State) : Host.Outcome State Fault Refusal :=
  .next (s.answer (maxsmpWord s.params))

/-- RD_TRK_CFG (20_memory.md R61). -/
def execRdTrkCfg (t : TrackId) (s : State) : Host.Outcome State Fault Refusal :=
  .next (s.answer (trkCfgWord (s.track t)))

/-- RD_TRK_MASK (20_memory.md R61). -/
def execRdTrkMask (t : TrackId) (s : State) : Host.Outcome State Fault Refusal :=
  .next (s.answer (trkMaskWord (s.track t)))

/-- RD_VCTRL (20_memory.md R63). -/
def execRdVctrl (v : VoiceId) (s : State) : Host.Outcome State Fault Refusal :=
  .next (s.answer (vctrlWord (s.voice v)))

/-- RD_VLEN (20_memory.md R60). -/
def execRdVlen (v : VoiceId) (s : State) : Host.Outcome State Fault Refusal :=
  .next (s.answer (vlenWord (s.voice v)))

/-- RD_VGAIN (20_memory.md R60). -/
def execRdVgain (v : VoiceId) (s : State) : Host.Outcome State Fault Refusal :=
  .next (s.answer (s.voice v).gain)

/-- RD_VPAN (20_memory.md R60). -/
def execRdVpan (v : VoiceId) (s : State) : Host.Outcome State Fault Refusal :=
  .next (s.answer (vpanWord (s.voice v)))

/-- RD_VPOS (20_memory.md R60). -/
def execRdVpos (v : VoiceId) (s : State) : Host.Outcome State Fault Refusal :=
  .next (s.answer (vposWord (s.voice v)))

/-- RD_VDECAY (20_memory.md R60). -/
def execRdVdecay (v : VoiceId) (s : State) : Host.Outcome State Fault Refusal :=
  .next (s.answer (s.voice v).decayAmplitude)

/-- RD_SAMPLE_V0 (20_memory.md R64). -/
def execRdSampleV0 (i : BitVec 20) (s : State) : Host.Outcome State Fault Refusal :=
  .next (s.answerWindow 0 i)

/-- RD_SAMPLE_V1 (20_memory.md R64). -/
def execRdSampleV1 (i : BitVec 20) (s : State) : Host.Outcome State Fault Refusal :=
  .next (s.answerWindow 1 i)

/-- RD_SAMPLE_V2 (20_memory.md R64). -/
def execRdSampleV2 (i : BitVec 20) (s : State) : Host.Outcome State Fault Refusal :=
  .next (s.answerWindow 2 i)

/-- RD_SAMPLE_V3 (20_memory.md R64). -/
def execRdSampleV3 (i : BitVec 20) (s : State) : Host.Outcome State Fault Refusal :=
  .next (s.answerWindow 3 i)

/-- RD_SAMPLE_V4 (20_memory.md R64). -/
def execRdSampleV4 (i : BitVec 20) (s : State) : Host.Outcome State Fault Refusal :=
  .next (s.answerWindow 4 i)

/-- RD_SAMPLE_V5 (20_memory.md R64). -/
def execRdSampleV5 (i : BitVec 20) (s : State) : Host.Outcome State Fault Refusal :=
  .next (s.answerWindow 5 i)

/-- RD_SAMPLE_V6 (20_memory.md R64). -/
def execRdSampleV6 (i : BitVec 20) (s : State) : Host.Outcome State Fault Refusal :=
  .next (s.answerWindow 6 i)

/-- RD_SAMPLE_V7 (20_memory.md R64). -/
def execRdSampleV7 (i : BitVec 20) (s : State) : Host.Outcome State Fault Refusal :=
  .next (s.answerWindow 7 i)

/-- The events no row of the table stands for: a write to a read-only or unmapped word changes nothing
(44_host_bus.md R170, 20_memory.md R65), a read of a write-only word answers 0 (20_memory.md R60), a read of
an unmapped word answers 0 too (R65), and the reset input resets (70_reset_and_hazards.md
R220). -/
def execUnlisted (u : Unlisted) (s : State) : Host.Outcome State Fault Refusal :=
  match u with
  | .ignoredWrite _ => .next s
  | .writeOnlyRead _ => .next (s.answer 0)
  | .unmappedRead _ => .next s.answerUnmapped
  | .resetInput => .next s.applyReset

end Sys2Proof.Machine
end

