-- ==== Sys2Proof/Machine/Sequencer.lean ====
section
/-! DEFINITION. Machine/Sequencer.lean: the track commands of spec/41_sequencer.md (CMD32 rows NOP, EDIT
to SET_ROTATION, and the reserved operations). -/

namespace Sys2Proof.Machine

/-- NOP (41_sequencer.md R118). -/
def execNop (s : State) : Host.Outcome State Fault Refusal := .next s

/-- The field EDIT changes, by the track's edit mode (41_sequencer.md R111). -/
def editField (dec : Bool) (k : Track) : Track :=
  match k.editMode with
  | .density => { k with pulseCount := editStep k.pulseCount dec k.loopLength }
  | .offset => { k with rotation := editStep k.rotation dec k.loopLength }
  | .length => { k with loopLength := editLength k.loopLength dec }

/-- EDIT (41_sequencer.md R111). -/
def execEdit (t : TrackId) (dec : Bool) (s : State) : Host.Outcome State Fault Refusal :=
  .next (s.editTrack t (editField dec))

/-- SET_MODE (41_sequencer.md R112); mode 3 is reserved and has no effect. -/
def execSetMode (t : TrackId) (m : BitVec 2) (s : State) : Host.Outcome State Fault Refusal :=
  match editModeOfBits m with
  | some mode => .next (s.editTrack t fun k => { k with editMode := mode })
  | none => .next s

/-- SET_DIV (41_sequencer.md R113). -/
def execSetDiv (t : TrackId) (k : BitVec 16) (s : State) : Host.Outcome State Fault Refusal :=
  .next (s.editTrack t fun x => { x with clockDivisionIndex := clampDivision k })

/-- SET_HOLD (41_sequencer.md R114): no clamp-recompute. -/
def execSetHold (t : TrackId) (h : Bool) (s : State) : Host.Outcome State Fault Refusal :=
  .next (s.setTrack t { s.track t with manualHold := h })

/-- SET_LENGTH (41_sequencer.md R115). -/
def execSetLength (t : TrackId) (k : BitVec 16) (s : State) : Host.Outcome State Fault Refusal :=
  .next (s.editTrack t fun x => { x with loopLength := clampLength k.toNat })

/-- SET_PULSES (41_sequencer.md R116). -/
def execSetPulses (t : TrackId) (k : BitVec 16) (s : State) : Host.Outcome State Fault Refusal :=
  .next (s.editTrack t fun x => { x with pulseCount := clampStep k.toNat x.loopLength })

/-- SET_ROTATION (41_sequencer.md R117). -/
def execSetRotation (t : TrackId) (k : BitVec 16) (s : State) : Host.Outcome State Fault Refusal :=
  .next (s.editTrack t fun x => { x with rotation := clampStep k.toNat x.loopLength })

/-- RESERVED_9: executes as NOP (30_encoding.md R74, 41_sequencer.md R118). -/
def execReserved9 (s : State) : Host.Outcome State Fault Refusal := .next s

/-- RESERVED_A: executes as NOP (30_encoding.md R74, 41_sequencer.md R118). -/
def execReservedA (s : State) : Host.Outcome State Fault Refusal := .next s

/-- RESERVED_B: executes as NOP (30_encoding.md R74, 41_sequencer.md R118). -/
def execReservedB (s : State) : Host.Outcome State Fault Refusal := .next s

/-- RESERVED_C: executes as NOP (30_encoding.md R74, 41_sequencer.md R118). -/
def execReservedC (s : State) : Host.Outcome State Fault Refusal := .next s

/-- RESERVED_D: executes as NOP (30_encoding.md R74, 41_sequencer.md R118). -/
def execReservedD (s : State) : Host.Outcome State Fault Refusal := .next s

/-- RESERVED_E: executes as NOP (30_encoding.md R74, 41_sequencer.md R118). -/
def execReservedE (s : State) : Host.Outcome State Fault Refusal := .next s

/-- RESERVED_F: executes as NOP (30_encoding.md R74, 41_sequencer.md R118). -/
def execReservedF (s : State) : Host.Outcome State Fault Refusal := .next s

end Sys2Proof.Machine
end

