-- ==== Sys2Proof/Machine/Transport.lean ====
section
/-! DEFINITION. Machine/Transport.lean: the transport events and the time base of spec/42_transport.md
(XPORT8 rows, US_STROBE). -/

namespace Sys2Proof.Machine

/-- The next `pulseCounter`, modulo 24 (42_transport.md R133). -/
def nextPulse (pc : BitVec 5) : BitVec 5 := BitVec.ofNat 5 ((pc.toNat + 1) % ppqn)

/-- CLOCK (42_transport.md R133). -/
def execClock (s : State) : Host.Outcome State Fault Refusal :=
  if s.tp.running then
    let pc := nextPulse s.tp.pulseCounter
    let s' := { s with tp := { s.tp with pulseCounter := pc } }
    if pc.toNat % pulsesPerTick = 0 then .next s'.tick else .next s'
  else .next s

/-- START (42_transport.md R131). -/
def execStart (s : State) : Host.Outcome State Fault Refusal :=
  .next (State.startSequence { s with tp := { s.tp with mode := .external, running := true } })

/-- CONTINUE: accepted, and does nothing (42_transport.md R134). -/
def execCont (s : State) : Host.Outcome State Fault Refusal := .next s

/-- STOP (42_transport.md R132). -/
def execStop (s : State) : Host.Outcome State Fault Refusal :=
  .next { s with tp := { s.tp with running := false, pulseCounter := 0 } }

/-- A reserved transport code: no operation (30_encoding.md R79). -/
def execXportReserved (_c : BitVec 8) (s : State) : Host.Outcome State Fault Refusal := .next s

/-- US_STROBE (42_transport.md R135). -/
def execUsStrobe (s : State) : Host.Outcome State Fault Refusal :=
  .next (State.internalClockCheck { s with tb := { s.tb with nowUs := s.tb.nowUs + 1 } })

end Sys2Proof.Machine
end

