-- ==== Sys2Proof/Machine/Voice.lean ====
section
/-! DEFINITION. Machine/Voice.lean: the voice engine's events of spec/43_voice.md (TRIGGER, SAMPLE_REQ). -/

namespace Sys2Proof.Machine

/-- TRIGGER (43_voice.md R151). -/
def execTrigger (v : VoiceId) (s : State) : Host.Outcome State Fault Refusal := .next (s.trigger v)

/-- SAMPLE_REQ (43_voice.md R157). -/
def execSampleReq (s : State) : Host.Outcome State Fault Refusal := .next s.render

end Sys2Proof.Machine
end

