-- ==== Sys2Proof/Machine/BusWrite.lean ====
section
/-! DEFINITION. Machine/BusWrite.lean: the bus writes of spec/44_host_bus.md (BUSW rows). -/

namespace Sys2Proof.Machine

/-- WR_CMD: `ExecCMD(d)`, by `op = d[31:28]` (44_host_bus.md R172). -/
def execWrCmd (d : Word) (s : State) : Host.Outcome State Fault Refusal :=
  match cmdOp d with
  | 0x0#4 => execNop s
  | 0x1#4 => execEdit (cmdTrack d) (cmdFlag d) s
  | 0x2#4 => execSetMode (cmdTrack d) (cmdMode d) s
  | 0x3#4 => execSetDiv (cmdTrack d) (cmdImm d) s
  | 0x4#4 => execSetHold (cmdTrack d) (cmdFlag d) s
  | 0x5#4 => execSetLength (cmdTrack d) (cmdImm d) s
  | 0x6#4 => execSetPulses (cmdTrack d) (cmdImm d) s
  | 0x7#4 => execSetRotation (cmdTrack d) (cmdImm d) s
  | 0x8#4 => execTrigger (cmdVoice d) s
  | 0x9#4 => execReserved9 s
  | 0xA#4 => execReservedA s
  | 0xB#4 => execReservedB s
  | 0xC#4 => execReservedC s
  | 0xD#4 => execReservedD s
  | 0xE#4 => execReservedE s
  | _ => execReservedF s

/-- WR_XPORT: `ExecXPORT(d[7:0])` (44_host_bus.md R170, R172). -/
def execWrXport (d : Word) (s : State) : Host.Outcome State Fault Refusal :=
  match d.extractLsb' 0 8 with
  | 0xF8#8 => execClock s
  | 0xFA#8 => execStart s
  | 0xFB#8 => execCont s
  | 0xFC#8 => execStop s
  | c => execXportReserved c s

/-- WR_BPM (42_transport.md R137). -/
def execWrBpm (d : Word) (s : State) : Host.Outcome State Fault Refusal :=
  .next { s with tp := { s.tp with bpm := clampBpm d } }

/-- WR_VCTRL: EN enables a disabled voice that has a length (44_host_bus.md R173). -/
def execWrVctrl (v : VoiceId) (d : Word) (s : State) : Host.Outcome State Fault Refusal :=
  if d.getLsbD 0 ∧ (s.voice v).enabled = false ∧ 1 ≤ (s.voice v).length.toNat then
    .next (s.setVoice v { s.voice v with enabled := true })
  else .next s

/-- WR_VLEN (44_host_bus.md R174). -/
def execWrVlen (v : VoiceId) (d : Word) (s : State) : Host.Outcome State Fault Refusal :=
  if (s.voice v).enabled then .next s
  else .next (s.setVoice v { s.voice v with length := clampVlen s.params.maxSamples d })

/-- WR_VGAIN (44_host_bus.md R175). -/
def execWrVgain (v : VoiceId) (d : Word) (s : State) : Host.Outcome State Fault Refusal :=
  .next (s.setVoice v { s.voice v with gain := clampGain d })

/-- WR_VPAN (44_host_bus.md R177). -/
def execWrVpan (v : VoiceId) (d : Word) (s : State) : Host.Outcome State Fault Refusal :=
  .next (s.setVoice v { s.voice v with panIndex := clampPan d })

/-- WR_SAMPLE_V0 (44_host_bus.md R176). -/
def execWrSampleV0 (i : BitVec 20) (d : Word) (s : State) : Host.Outcome State Fault Refusal :=
  .next (s.storeSample 0 i d)

/-- WR_SAMPLE_V1 (44_host_bus.md R176). -/
def execWrSampleV1 (i : BitVec 20) (d : Word) (s : State) : Host.Outcome State Fault Refusal :=
  .next (s.storeSample 1 i d)

/-- WR_SAMPLE_V2 (44_host_bus.md R176). -/
def execWrSampleV2 (i : BitVec 20) (d : Word) (s : State) : Host.Outcome State Fault Refusal :=
  .next (s.storeSample 2 i d)

/-- WR_SAMPLE_V3 (44_host_bus.md R176). -/
def execWrSampleV3 (i : BitVec 20) (d : Word) (s : State) : Host.Outcome State Fault Refusal :=
  .next (s.storeSample 3 i d)

/-- WR_SAMPLE_V4 (44_host_bus.md R176). -/
def execWrSampleV4 (i : BitVec 20) (d : Word) (s : State) : Host.Outcome State Fault Refusal :=
  .next (s.storeSample 4 i d)

/-- WR_SAMPLE_V5 (44_host_bus.md R176). -/
def execWrSampleV5 (i : BitVec 20) (d : Word) (s : State) : Host.Outcome State Fault Refusal :=
  .next (s.storeSample 5 i d)

/-- WR_SAMPLE_V6 (44_host_bus.md R176). -/
def execWrSampleV6 (i : BitVec 20) (d : Word) (s : State) : Host.Outcome State Fault Refusal :=
  .next (s.storeSample 6 i d)

/-- WR_SAMPLE_V7 (44_host_bus.md R176). -/
def execWrSampleV7 (i : BitVec 20) (d : Word) (s : State) : Host.Outcome State Fault Refusal :=
  .next (s.storeSample 7 i d)

end Sys2Proof.Machine
end

