-- ==== Sys2Proof/Machine/Dispatch.lean ====
section
/-! DEFINITION. Machine/Dispatch.lean: one arm per row of spec/opcode_table.json. -/

namespace Sys2Proof.Machine

def exec (i : Instr) (s : State) : Host.Outcome State Fault Refusal :=
  match i with
  | .nop => Sys2Proof.Machine.execNop s
  | .edit t dec => Sys2Proof.Machine.execEdit t dec s
  | .setMode t m => Sys2Proof.Machine.execSetMode t m s
  | .setDiv t k => Sys2Proof.Machine.execSetDiv t k s
  | .setHold t h => Sys2Proof.Machine.execSetHold t h s
  | .setLength t k => Sys2Proof.Machine.execSetLength t k s
  | .setPulses t k => Sys2Proof.Machine.execSetPulses t k s
  | .setRotation t k => Sys2Proof.Machine.execSetRotation t k s
  | .trigger v => Sys2Proof.Machine.execTrigger v s
  | .reserved9 => Sys2Proof.Machine.execReserved9 s
  | .reservedA => Sys2Proof.Machine.execReservedA s
  | .reservedB => Sys2Proof.Machine.execReservedB s
  | .reservedC => Sys2Proof.Machine.execReservedC s
  | .reservedD => Sys2Proof.Machine.execReservedD s
  | .reservedE => Sys2Proof.Machine.execReservedE s
  | .reservedF => Sys2Proof.Machine.execReservedF s
  | .clock => Sys2Proof.Machine.execClock s
  | .start => Sys2Proof.Machine.execStart s
  | .cont => Sys2Proof.Machine.execCont s
  | .stop => Sys2Proof.Machine.execStop s
  | .xportReserved c => Sys2Proof.Machine.execXportReserved c s
  | .wrCmd d => Sys2Proof.Machine.execWrCmd d s
  | .wrXport d => Sys2Proof.Machine.execWrXport d s
  | .wrBpm d => Sys2Proof.Machine.execWrBpm d s
  | .wrVctrl v d => Sys2Proof.Machine.execWrVctrl v d s
  | .wrVlen v d => Sys2Proof.Machine.execWrVlen v d s
  | .wrVgain v d => Sys2Proof.Machine.execWrVgain v d s
  | .wrVpan v d => Sys2Proof.Machine.execWrVpan v d s
  | .wrSampleV0 n d => Sys2Proof.Machine.execWrSampleV0 n d s
  | .wrSampleV1 n d => Sys2Proof.Machine.execWrSampleV1 n d s
  | .wrSampleV2 n d => Sys2Proof.Machine.execWrSampleV2 n d s
  | .wrSampleV3 n d => Sys2Proof.Machine.execWrSampleV3 n d s
  | .wrSampleV4 n d => Sys2Proof.Machine.execWrSampleV4 n d s
  | .wrSampleV5 n d => Sys2Proof.Machine.execWrSampleV5 n d s
  | .wrSampleV6 n d => Sys2Proof.Machine.execWrSampleV6 n d s
  | .wrSampleV7 n d => Sys2Proof.Machine.execWrSampleV7 n d s
  | .rdBpm => Sys2Proof.Machine.execRdBpm s
  | .rdTstatus => Sys2Proof.Machine.execRdTstatus s
  | .rdNowUs => Sys2Proof.Machine.execRdNowUs s
  | .rdLastTickUs => Sys2Proof.Machine.execRdLastTickUs s
  | .rdConfig => Sys2Proof.Machine.execRdConfig s
  | .rdMaxsmp => Sys2Proof.Machine.execRdMaxsmp s
  | .rdTrkCfg t => Sys2Proof.Machine.execRdTrkCfg t s
  | .rdTrkMask t => Sys2Proof.Machine.execRdTrkMask t s
  | .rdVctrl v => Sys2Proof.Machine.execRdVctrl v s
  | .rdVlen v => Sys2Proof.Machine.execRdVlen v s
  | .rdVgain v => Sys2Proof.Machine.execRdVgain v s
  | .rdVpan v => Sys2Proof.Machine.execRdVpan v s
  | .rdVpos v => Sys2Proof.Machine.execRdVpos v s
  | .rdVdecay v => Sys2Proof.Machine.execRdVdecay v s
  | .rdSampleV0 n => Sys2Proof.Machine.execRdSampleV0 n s
  | .rdSampleV1 n => Sys2Proof.Machine.execRdSampleV1 n s
  | .rdSampleV2 n => Sys2Proof.Machine.execRdSampleV2 n s
  | .rdSampleV3 n => Sys2Proof.Machine.execRdSampleV3 n s
  | .rdSampleV4 n => Sys2Proof.Machine.execRdSampleV4 n s
  | .rdSampleV5 n => Sys2Proof.Machine.execRdSampleV5 n s
  | .rdSampleV6 n => Sys2Proof.Machine.execRdSampleV6 n s
  | .rdSampleV7 n => Sys2Proof.Machine.execRdSampleV7 n s
  | .usStrobe => Sys2Proof.Machine.execUsStrobe s
  | .sampleReq => Sys2Proof.Machine.execSampleReq s

end Sys2Proof.Machine
end

