-- ==== Sys2Proof/Machine/Step.lean ====
section
/-! DEFINITION. Machine/Step.lean: one step performs the next event the environment has presented
(spec/00_scope.md R12, spec/60_exceptions.md R203). -/

namespace Sys2Proof.Machine

/-- An event is decoded and performed; what no row stands for has the effect of `execUnlisted`. -/
def perform (x : Input) (s : State) : Host.Outcome State Fault Refusal :=
  match decode x with
  | .ok i => exec i s
  | .error u => execUnlisted u s

/-- The next event is taken from the queue and performed; with no event presented the block holds its
state (60_exceptions.md R213). -/
def step (s : State) : Host.Outcome State Fault Refusal :=
  match s.inputs with
  | [] => .next s.idle
  | x :: rest => perform x (s.takeInput rest)

/-- The event that the table's `nbits` bits `w` stand for, presented next (assumption log 1, 13); bits
no format has leave the state as it is. -/
def State.withFetchWord (s : State) (nbits w : Nat) : State :=
  match tableInput nbits w with
  | some x => { s with inputs := x :: s.inputs }
  | none => s

end Sys2Proof.Machine
end

