-- ==== Sys2Proof/Safety.lean ====
section
/-! DEFINITION. Safety.lean: the legal states of the block (spec/10_state.md R31, R42), the frames and
the runs that statements about it speak of. -/

namespace Sys2Proof.Machine

/-! ## Legal states -/

/-- How many steps a mask sets. -/
def popcount (m : BitVec 16) : Nat := (setSteps m 16).length

/-- The constraints of 00_scope.md R7 on the implementation parameters: the floor a positive normal
binary32 below 1.0, 1 to 2^20 samples, a base pattern that 40_rhythm.md R103, R104 and R106 allow,
coefficients in [+0.0, 1.0] with index 0 hard left and 18 hard right (43_voice.md R158). -/
structure LegalParams (p : Params) : Prop where
  floor_normal : 0x00800000 ≤ p.decayFloor.toNat
  floor_below_one : p.decayFloor.toNat < 0x3F800000
  frame_pos : 1 ≤ p.frameLen
  samples_pos : 1 ≤ p.maxSamples
  samples_le : p.maxSamples ≤ 2 ^ 20
  base_legal : legalBase p.euclidBase = true
  panL_le : ∀ i (h : i < panPositions), p.panL[i].toNat ≤ 0x3F800000
  panR_le : ∀ i (h : i < panPositions), p.panR[i].toNat ≤ 0x3F800000
  hard_left : p.panL[0] = f32one ∧ p.panR[0] = f32zero
  hard_right : p.panL[panMax]'(by decide) = f32zero ∧ p.panR[panMax]'(by decide) = f32one

/-- The ranges of a track's fields (10_state.md R23 to R29). -/
structure TrackInRange (k : Track) : Prop where
  length_pos : 1 ≤ k.loopLength.toNat
  length_le : k.loopLength.toNat ≤ maxSteps
  pulses_le : k.pulseCount.toNat ≤ k.loopLength.toNat - 1
  rotation_le : k.rotation.toNat ≤ k.loopLength.toNat - 1
  step_le : k.activeStep.toNat ≤ k.loopLength.toNat - 1
  division_le : k.clockDivisionIndex.toNat ≤ divIndexMax

/-- The track invariants (10_state.md R31): the ranges, and a mask that is never stale. -/
structure LegalTrack (base : EuclidBase) (k : Track) : Prop where
  in_range : TrackInRange k
  mask_fresh : k.rhythmMask
    = generate base k.loopLength.toNat k.pulseCount.toNat k.rotation.toNat
  mask_count : popcount k.rhythmMask = k.pulseCount.toNat

/-- The voice invariants (10_state.md R42), with the range of `length` (R34). -/
structure LegalVoice (p : Params) (v : Voice) : Prop where
  disabled_silent : v.enabled = false →
    v.isPlaying = false ∧ v.decayActive = false ∧ v.playbackPosition = 0 ∧ v.decayAmplitude = f32zero
  idle_at_start : v.isPlaying = false → v.playbackPosition = 0
  enabled_loaded : v.enabled = true → 1 ≤ v.length.toNat ∧ v.playbackPosition.toNat < v.length.toNat
  length_le : v.length.toNat ≤ p.maxSamples
  gain_range : v.gain.toNat ≤ 0x3F800000
  pan_le : v.panIndex.toNat ≤ panMax

/-- The transport's ranges (10_state.md R46, R47), and a running transport is external (42_transport.md
R133). -/
structure LegalTransport (tp : Transport) : Prop where
  step_pos : 1 ≤ tp.stepCounter.toNat
  step_le : tp.stepCounter.toNat ≤ stepCycle
  pulse_le : tp.pulseCounter.toNat < ppqn
  running_external : tp.running = true → tp.mode = .external

/-- The sample memory is in its canonical form and lists nothing but bytes of samples that exist
(10_state.md R35, 20_memory.md R64). -/
structure LegalMem (maxSamples : Nat) (m : List Host.Cell) : Prop where
  canonical : memWf m = true
  in_windows : ∀ c ∈ m, ∃ (v : VoiceId) (i : BitVec 20), i.toNat < maxSamples ∧
    (c.1 = sampleByteAddr v i ∨ c.1 = sampleByteAddr v i + 1)

/-- What holds after reset and after every event (10_state.md R31, R42). -/
structure Legal (s : State) : Prop where
  params : LegalParams s.params
  tracks : ∀ t, LegalTrack s.params.euclidBase (s.track t)
  voices : ∀ v, LegalVoice s.params (s.voice v)
  transport : LegalTransport s.tp
  memory : LegalMem s.params.maxSamples s.mem

/-- 101.0, the bound of 43_voice.md R159 on a tail and an accumulator. -/
def tailBound : Nat := 0x42CA0000

/-- 808.0, the bound of 43_voice.md R159 on an output channel. -/
def channelBound : Nat := 0x444A0000

/-- Every tail is below 101 in magnitude, so finite (43_voice.md R159, 10_state.md R40). -/
def TailsBounded (s : State) : Prop := ∀ v, f32mag (s.voice v).decayAmplitude < tailBound

/-- An output sample both of whose channels are below 808 in magnitude (43_voice.md R159). -/
def RecordBounded : OutRecord → Prop
  | .out l r => f32mag l < channelBound ∧ f32mag r < channelBound
  | _ => True

/-! ## Frames -/

/-- The model's own fields but the records: parameters, reset count, events to come, read data. -/
def SameHost (s s' : State) : Prop :=
  s'.params = s.params ∧ s'.ramEpoch = s.ramEpoch ∧ s'.inputs = s.inputs ∧
    s'.readData = s.readData

/-- Every byte of the sample memory reads as before. -/
def SameBytes (s s' : State) : Prop := ∀ a, s'.byteAt a = s.byteAt a

/-- Nothing but track t changes. -/
def OnlyTrack (t : TrackId) (s s' : State) : Prop :=
  (∀ u, u ≠ t → s'.track u = s.track u) ∧ (∀ v, s'.voice v = s.voice v) ∧ SameBytes s s' ∧
    s'.tp = s.tp ∧ s'.tb = s.tb ∧ s'.out = s.out ∧ SameHost s s'

/-- Nothing but voice v changes. -/
def OnlyVoice (v : VoiceId) (s s' : State) : Prop :=
  (∀ t, s'.track t = s.track t) ∧ (∀ u, u ≠ v → s'.voice u = s.voice u) ∧ SameBytes s s' ∧
    s'.tp = s.tp ∧ s'.tb = s.tb ∧ s'.out = s.out ∧ SameHost s s'

/-- Nothing but voice v and the records change. -/
def OnlyVoiceAndRecords (v : VoiceId) (s s' : State) : Prop :=
  (∀ t, s'.track t = s.track t) ∧ (∀ u, u ≠ v → s'.voice u = s.voice u) ∧ SameBytes s s' ∧
    s'.tp = s.tp ∧ s'.tb = s.tb ∧ SameHost s s'

/-- Nothing but the transport changes. -/
def OnlyTransport (s s' : State) : Prop :=
  (∀ t, s'.track t = s.track t) ∧ (∀ v, s'.voice v = s.voice v) ∧ SameBytes s s' ∧
    s'.tb = s.tb ∧ s'.out = s.out ∧ SameHost s s'

/-- Nothing but the time base changes. -/
def OnlyTimeBase (s s' : State) : Prop :=
  (∀ t, s'.track t = s.track t) ∧ (∀ v, s'.voice v = s.voice v) ∧ SameBytes s s' ∧
    s'.tp = s.tp ∧ s'.out = s.out ∧ SameHost s s'

/-- Nothing changes but the bytes at `a` and `a + 1`. -/
def OnlyBytes (a : Nat) (s s' : State) : Prop :=
  (∀ t, s'.track t = s.track t) ∧ (∀ v, s'.voice v = s.voice v) ∧
    (∀ b, b ≠ a → b ≠ a + 1 → s'.byteAt b = s.byteAt b) ∧
    s'.tp = s.tp ∧ s'.tb = s.tb ∧ s'.out = s.out ∧ SameHost s s'

/-- The state is as before but for the record `RDATA(d)` on the bus read data port (44_host_bus.md R171);
the list of the other records is as it was. -/
def Answers (d : Word) (s s' : State) : Prop := s' = { s with readData := some d }

/-- A read instruction completes, and what it answers is `w`. -/
def ReadsAs (i : Instr) (s : State) (w : Word) : Prop :=
  ∃ s', exec i s = .next s' ∧ Answers w s s'

/-- A sample-window read of voice v (44_host_bus.md R171): the sample, sign-extended; at an index that does
not exist the word is unmapped and reads 0 (20_memory.md R64, R65), as `RDATA(0)` apart from the list of records
(the model's reading, assumption log 4). -/
def ReadsWindow (v : VoiceId) (i : BitVec 20) (ins : Instr) (s : State) : Prop :=
  (i.toNat < s.params.maxSamples → ReadsAs ins s (BitVec.ofInt 32 (s.sample v i).toInt)) ∧
    (s.params.maxSamples ≤ i.toNat → ReadsAs ins s 0)

/-- A sample-window write to voice v (44_host_bus.md R176): into a disabled voice, at an index that
exists, it stores `d[15:0]` in the two bytes of that sample; else it changes nothing. -/
def WritesWindow (v : VoiceId) (i : BitVec 20) (d : Word) (ins : Instr) (s : State) : Prop :=
  (i.toNat < s.params.maxSamples ∧ (s.voice v).enabled = false →
    ∃ s', exec ins s = .next s' ∧ s'.sample v i = d.extractLsb' 0 16 ∧
      OnlyBytes (sampleByteAddr v i) s s') ∧
    (s.params.maxSamples ≤ i.toNat ∨ (s.voice v).enabled = true → exec ins s = .next s)

/-- A track after `ClampRecompute` (41_sequencer.md R110), when its fields stood at `len`, `p`, `r` and
`a` before it. -/
def Recomputed (base : EuclidBase) (len p r a : Nat) (k : Track) : Prop :=
  k.loopLength.toNat = len ∧ k.pulseCount.toNat = min p (len - 1) ∧
    k.rotation.toNat = min r (len - 1) ∧ k.activeStep.toNat = min a (len - 1) ∧
    k.rhythmMask = generate base len (min p (len - 1)) (min r (len - 1))

/-- The words a bus write acts on (20_memory.md R60, R64): CMD, XPORT, BPM, the first four registers of
each voice, the sample windows. -/
def Writable (wa : WordAddr) : Prop :=
  wa.toNat ≤ 2 ∨ (∃ v k : Nat, v < 8 ∧ k < 4 ∧ wa.toNat = 0x100 + 8 * v + k) ∨
    (0x100000 ≤ wa.toNat ∧ wa.toNat < 0x900000)

/-- The words a bus read reads (20_memory.md R60, R64): BPM to MAXSMP, the track registers, the first six
registers of each voice, the sample windows. -/
def Readable (wa : WordAddr) : Prop :=
  (2 ≤ wa.toNat ∧ wa.toNat ≤ 7) ∨ (0x10 ≤ wa.toNat ∧ wa.toNat < 0x18) ∨
    (∃ v k : Nat, v < 8 ∧ k < 6 ∧ wa.toNat = 0x100 + 8 * v + k) ∨
    (0x100000 ≤ wa.toNat ∧ wa.toNat < 0x900000)

/-- The bits of a command word that its operation uses (30_encoding.md R71, R72). -/
def usedBits (op : BitVec 4) : Word :=
  if op = 0x1 ∨ op = 0x4 then 0xF3000001
  else if op = 0x2 then 0xF3000003
  else if op = 0x3 ∨ op = 0x5 ∨ op = 0x6 ∨ op = 0x7 then 0xF300FFFF
  else if op = 0x8 then 0xF7000000
  else 0xF0000000

/-- `DIV_RATIO` of a legal division index: 16, 8, 4, 2, 1 (10_state.md R27). -/
def ticksPerStep (k : Track) : Nat := 2 ^ (4 - k.clockDivisionIndex.toNat)

/-- Does a tick at this `stepCounter` fall on the track's division (41_sequencer.md R123)? -/
def fallsOn (sc : BitVec 5) (k : Track) : Bool := sc.toNat % ticksPerStep k == 0

/-- The step after the active one (41_sequencer.md R119). -/
def stepAfter (k : Track) : Nat :=
  if k.activeStep.toNat + 1 = k.loopLength.toNat then 0 else k.activeStep.toNat + 1

/-- The step a tick tests on a track it processes (41_sequencer.md R119, R122). -/
def testedStep (order : TickOrder) (k : Track) : Nat :=
  match order with
  | .advanceThenTest => stepAfter k
  | .testThenAdvance => k.activeStep.toNat

/-- Does a tick at this `stepCounter` gate the track's voice (41_sequencer.md R120)? -/
def sounds (order : TickOrder) (sc : BitVec 5) (k : Track) : Bool :=
  fallsOn sc k && (k.rhythmMask.getLsbD (testedStep order k) || k.manualHold)

/-- How many strobes after its gate reopens the internal clock first ticks, when `elapsed` microseconds modulo
2^32 have passed since its last tick: 1 to `interval`, as 42_transport.md R142 says, but where `elapsed` wraps
to 0 at the first of them (42_transport.md R136; assumption log 21). -/
def strobesToTick (interval elapsed : Nat) : Nat :=
  if elapsed + 1 = 2 ^ 32 then interval + 1
  else if interval ≤ elapsed then 1
  else interval - elapsed

/-! ## Runs -/

/-- The machine with these events to come. -/
def State.present (s : State) (xs : List Input) : State := { s with inputs := xs }

/-- The state after n steps and the records they drive, in order; nothing if a step stops. -/
def runSteps : Nat → State → Option (State × List OutRecord)
  | 0, s => some (s, [])
  | n + 1, s =>
    match step s with
    | .next t =>
      match runSteps n t with
      | some (u, rs) => some (u, t.out ++ rs)
      | none => none
    | _ => none

/-- The run of a list of events from a state. -/
def runEvents (xs : List Input) (s : State) : Option (State × List OutRecord) :=
  runSteps xs.length (s.present xs)

/-- Is this a TICK record? -/
def isTick : OutRecord → Bool
  | .tick _ => true
  | _ => false

/-- How many ticks a list of records reports. -/
def tickCount (rs : List OutRecord) : Nat := rs.countP isTick

/-- What the sequencer drives: its ticks, and which voice each gate reaches, whatever the voice makes of
it (60_exceptions.md R205, 41_sequencer.md R129; assumption log 23). -/
inductive Gate where
  | tick (sc : BitVec 5)
  | gate (v : VoiceId)
deriving DecidableEq, Repr

/-- The gate a record reports, if any. -/
def gateOf : OutRecord → Option Gate
  | .tick sc => some (.tick sc)
  | .trig v _ => some (.gate v)
  | _ => none

/-- The gate stream of a list of records. -/
def gatesOf (rs : List OutRecord) : List Gate := rs.filterMap gateOf

/-- Sample requests and bus reads: the events that 41_sequencer.md R129 says cannot touch the
sequencer. -/
def isSampleOrRead : Input → Bool
  | .sampleReq => true
  | .busR _ => true
  | _ => false

/-- The sequencer's part of two states agrees: tracks, transport, time base and parameters. -/
def SameSequencer (s s' : State) : Prop :=
  s'.tracks = s.tracks ∧ s'.tp = s.tp ∧ s'.tb = s.tb ∧ s'.params = s.params

/-- An event that runs START: the transport code, or a bus write of it to XPORT (44_host_bus.md R172). -/
def carriesStart : Input → Bool
  | .xport8 c => c == 0xFA
  | .busW wa d => wa == 0x000001 && d.extractLsb' 0 8 == 0xFA#8
  | _ => false

/-- The frames the sink makes of a stream of output samples: `FRAME_LEN` each, the last one maybe not
full (43_voice.md R161). -/
def framesOf (frameLen : Nat) (rs : List OutRecord) : List (List OutRecord) :=
  (rs.filter fun r => match r with | .out _ _ => true | _ => false).toChunks frameLen

/-- The pseudo-instruction `load` (30_encoding.md R84): the samples, then length, gain, pan, enable. -/
def loadEvents (v : VoiceId) (xs : List Sample) (gain pan : Word) : List Input :=
  (xs.zipIdx.map fun y =>
    .busW (sampleAddr (BitVec.ofNat 4 (v.val + 1)) (BitVec.ofNat 20 y.2)) (0#16 ++ y.1)) ++
  [.busW (voiceRegAddr v 1) (BitVec.ofNat 32 xs.length), .busW (voiceRegAddr v 2) gain,
    .busW (voiceRegAddr v 3) pan, .busW (voiceRegAddr v 0) 1]

end Sys2Proof.Machine
end

