-- ==== Sys2Proof/Certificates/Slice0/Obligations.lean ====
section
/-! DEFINITION. Certificates/Slice0/Obligations.lean: the statements for the provers, from the numbered
rules of the spec. -/

open Sys2Proof Sys2Proof.Machine

/-! ## Encoding -/

/-- Every well-formed instruction decodes from its own encoding (30_encoding.md R71, R73, R78, R80). -/
def Obligations.DecodeEncodeRoundTrip : Prop :=
  ∀ i : Instr, i.wellFormed = true → decode (encode i) = .ok i

/-- Every transport code and every bus access that decodes to an instruction is that instruction's own
encoding, so no two of them share a meaning (30_encoding.md R82). -/
def Obligations.BusAccessesHaveOneMeaning : Prop :=
  (∀ wa d i, decode (.busW wa d) = .ok i → i.wellFormed = true ∧ encode i = .busW wa d) ∧
  (∀ wa i, decode (.busR wa) = .ok i → i.wellFormed = true ∧ encode i = .busR wa) ∧
  (∀ c, ∃ i, decode (.xport8 c) = .ok i ∧ i.wellFormed = true ∧ encode i = .xport8 c)

/-- 30_encoding.md R72: a command word executes exactly as the same word with its unused bits clear, as
an event of its own format and as a bus write to CMD. -/
def Obligations.CommandUnusedBitsAreIgnored : Prop :=
  ∀ (d : Word) (s : State),
    perform (.cmd32 d) s = perform (.cmd32 (d &&& usedBits (cmdOp d))) s ∧
    perform (.busW 0x000000 d) s = perform (.busW 0x000000 (d &&& usedBits (cmdOp d))) s

/-- 30_encoding.md R70: an event presented in the CMD32 or the XPORT8 format does what the bus write that
carries it does (that the two presentations are one event is the model's reading, assumption log 3). -/
def Obligations.CommandFormatsAreBusWrites : Prop :=
  ∀ (d : Word) (s : State),
    perform (.cmd32 d) s = perform (.busW 0x000000 d) s ∧
    perform (.xport8 (BitVec.ofNat 8 d.toNat)) s = perform (.busW 0x000001 d) s

/-- Words of 95_test_vectors.md V2 and addresses of 20_memory.md R60 decode to the rows they stand for. -/
def Obligations.SpecWordsDecode : Prop :=
  decode (.cmd32 0x13000001) = .ok (.edit 3 true) ∧
  decode (.cmd32 0x1F00FFFE) = .ok (.edit 3 false) ∧
  decode (.cmd32 0x8F000000) = .ok (.trigger 7) ∧
  decode (.cmd32 0x92FFFFFF) = .ok .reserved9 ∧
  decode (.xport8 0xFA) = .ok .start ∧
  decode (.busW 0x00010B 0) = .ok (.wrVpan 1 0) ∧
  decode (.busR 0x000015) = .ok (.rdTrkMask 2) ∧
  decode (.busR 0x200001) = .ok (.rdSampleV1 1)

/-! ## The step -/

/-- A step takes the first event to come, decodes it, and is `exec` of what it decodes to, on the state
with that event gone, an empty record list and no returned value; with no event to come it holds the state
and drives no record (the queue, the record list and the returned value are the model's choice, assumption log 1 and 2). -/
def Obligations.StepRunsDecodedInstruction : Prop :=
  (∀ (s : State) (x : Input) (rest : List Input) (i : Instr), s.inputs = x :: rest →
    decode x = .ok i → i.wellFormed = true →
    step s = exec i { s with inputs := rest, out := [], readData := none }) ∧
  (∀ s : State, s.inputs = [] → step s = .next { s with out := [], readData := none })

/-- 60_exceptions.md R200: every event is defined for every input value and every state: no step faults
and none is refused. -/
def Obligations.StepAlwaysAnswersNext : Prop :=
  ∀ s : State, ∃ t, step s = .next t

/-- No event writes an implementation parameter, and a step takes exactly one event from the queue, the
reset input included (the model's own fields, assumption log 1 and 5). -/
def Obligations.StepKeepsParametersAndTakesOneEvent : Prop :=
  ∀ s t : State, step s = .next t → t.params = s.params ∧ t.inputs = s.inputs.tail

/-- A bus write to a word the map does not make writable changes nothing (44_host_bus.md R170, 20_memory.md
R65), and a bus read of a word it does not make readable, CMD, XPORT or unmapped, reads as 0 (20_memory.md R60,
R65): it drives 0 on the read data port (44_host_bus.md R171), changes no field of the block and drives no other
record (that RDATA is kept apart from the other records: assumption log 4). -/
def Obligations.UnnamedWordsReadZeroAndIgnoreWrites : Prop :=
  (∀ wa d (s : State), ¬ Writable wa → perform (.busW wa d) s = .next s) ∧
  (∀ wa (s : State), ¬ Readable wa → ∃ s', perform (.busR wa) s = .next s' ∧ Answers 0 s s')

/-- 20_memory.md R66: no read has a side effect: whatever word a bus read names, it answers a value on the
read data port and changes nothing else. -/
def Obligations.BusReadsHaveNoSideEffect : Prop :=
  ∀ wa (s : State), ∃ w s', perform (.busR wa) s = .next s' ∧ Answers w s s'

/-! ## Rhythm Generator -/

/-- 40_rhythm.md R102, for every `EUCLID_BASE`. -/
def Obligations.GenerateWithoutPulsesIsEmpty : Prop :=
  ∀ base s r, 1 ≤ s → s ≤ 16 → r < s → generate base s 0 r = 0

/-- 40_rhythm.md R103, for every `EUCLID_BASE` that the spec allows, and the default one is allowed. -/
def Obligations.GeneratePopcount : Prop :=
  legalBase .formula = true ∧
  ∀ base s p r, legalBase base = true → 1 ≤ s → s ≤ 16 → p < s → r < s →
    popcount (generate base s p r) = p ∧ ∀ i, s ≤ i → (generate base s p r).getLsbD i = false

/-- 40_rhythm.md R104: every circular gap of the default pattern, in every rotation, is `s div p` or one
more. -/
def Obligations.DefaultPatternIsMaximallyEven : Prop :=
  ∀ s p r, s ≤ 16 → 1 ≤ p → p < s → r < s →
    ∀ g ∈ maskGaps (generate .formula s p r) s, g = s / p ∨ g = s / p + 1

/-- 40_rhythm.md R105: rotation by `r` moves step i to step (i + r) mod s and sets no bit at or above `s`,
and a rotated pattern is the rotation of the unrotated one. -/
def Obligations.RotationMovesEveryStep : Prop :=
  (∀ (m : BitVec 16) r s, 1 ≤ s → s ≤ 16 → r < s → m.toNat < 2 ^ s →
    (∀ i, i < s → (rotL m r s).getLsbD ((i + r) % s) = m.getLsbD i) ∧
      ∀ i, s ≤ i → (rotL m r s).getLsbD i = false) ∧
  (∀ base s p r, legalBase base = true → 1 ≤ s → s ≤ 16 → p < s → r < s →
    generate base s p r = rotL (generate base s p 0) r s)

/-- 40_rhythm.md R109: the table of unrotated patterns. -/
def Obligations.DefaultPatternTable : Prop :=
  (List.range 16).map (fun s => (List.range (s + 1)).map fun p => generate .formula (s + 1) p 0) =
  [[0x0000], [0x0000, 0x0001], [0x0000, 0x0001, 0x0005], [0x0000, 0x0001, 0x0005, 0x000D],
   [0x0000, 0x0001, 0x0009, 0x0015, 0x001D], [0x0000, 0x0001, 0x0009, 0x0015, 0x002D, 0x003D],
   [0x0000, 0x0001, 0x0011, 0x0029, 0x0055, 0x006D, 0x007D],
   [0x0000, 0x0001, 0x0011, 0x0049, 0x0055, 0x00B5, 0x00DD, 0x00FD],
   [0x0000, 0x0001, 0x0021, 0x0049, 0x00A9, 0x0155, 0x016D, 0x01DD, 0x01FD],
   [0x0000, 0x0001, 0x0021, 0x0091, 0x0129, 0x0155, 0x02B5, 0x036D, 0x03BD, 0x03FD],
   [0x0000, 0x0001, 0x0041, 0x0111, 0x0249, 0x02A9, 0x0555, 0x05B5, 0x06ED, 0x07BD, 0x07FD],
   [0x0000, 0x0001, 0x0041, 0x0111, 0x0249, 0x0529, 0x0555, 0x0AD5, 0x0B6D, 0x0DDD, 0x0F7D, 0x0FFD],
   [0x0000, 0x0001, 0x0081, 0x0221, 0x0491, 0x0949, 0x0AA9, 0x1555, 0x16B5, 0x1B6D, 0x1DDD, 0x1F7D,
    0x1FFD],
   [0x0000, 0x0001, 0x0081, 0x0421, 0x0891, 0x1249, 0x14A9, 0x1555, 0x2AD5, 0x2DB5, 0x36ED, 0x3BDD,
    0x3EFD, 0x3FFD],
   [0x0000, 0x0001, 0x0101, 0x0421, 0x1111, 0x1249, 0x2529, 0x2AA9, 0x5555, 0x56B5, 0x5B6D, 0x6EED,
    0x77BD, 0x7EFD, 0x7FFD],
   [0x0000, 0x0001, 0x0101, 0x0841, 0x1111, 0x2491, 0x4949, 0x54A9, 0x5555, 0xAB55, 0xB5B5, 0xDB6D,
    0xDDDD, 0xF7BD, 0xFDFD, 0xFFFD]]

/-! ## Track commands -/

/-- 41_sequencer.md R118, 30_encoding.md R74, 42_transport.md R134, 30_encoding.md R79: NOP, the reserved
operations, CONTINUE and the reserved transport codes complete and change nothing. -/
def Obligations.NoOperationsChangeNothing : Prop :=
  ∀ s : State,
    (exec .nop s = .next s ∧ exec .reserved9 s = .next s ∧ exec .reservedA s = .next s ∧
      exec .reservedB s = .next s ∧ exec .reservedC s = .next s ∧ exec .reservedD s = .next s ∧
      exec .reservedE s = .next s ∧ exec .reservedF s = .next s) ∧
    exec .cont s = .next s ∧
    (∀ c, exec (.xportReserved c) s = .next s) ∧
    (∀ d, cmdOp d = 0x0 ∨ 0x9 ≤ (cmdOp d).toNat → perform (.cmd32 d) s = .next s) ∧
    (∀ c, c ≠ 0xF8 → c ≠ 0xFA → c ≠ 0xFC → perform (.xport8 c) s = .next s)

/-- 41_sequencer.md R111 with R110: one EDIT moves the field its track's mode selects by one, saturating,
then clamps and recomputes; nothing but that track changes. -/
def Obligations.EditMovesSelectedField : Prop :=
  ∀ (s : State) (t : TrackId) (dec : Bool),
    1 ≤ (s.track t).loopLength.toNat → (s.track t).loopLength.toNat ≤ 16 →
    ∃ s', exec (.edit t dec) s = .next s' ∧ OnlyTrack t s s' ∧
      (s'.track t).editMode = (s.track t).editMode ∧
      (s'.track t).clockDivisionIndex = (s.track t).clockDivisionIndex ∧
      (s'.track t).manualHold = (s.track t).manualHold ∧
      (let k := s.track t
       let len := k.loopLength.toNat
       let p := k.pulseCount.toNat
       let r := k.rotation.toNat
       let a := k.activeStep.toNat
       (k.editMode = .density →
          Recomputed s.params.euclidBase len (if dec then p - 1 else min (p + 1) (len - 1)) r a
            (s'.track t)) ∧
       (k.editMode = .offset →
          Recomputed s.params.euclidBase len p (if dec then r - 1 else min (r + 1) (len - 1)) a
            (s'.track t)) ∧
       (k.editMode = .length →
          Recomputed s.params.euclidBase (if dec then max (len - 1) 1 else min (len + 1) 16) p r a
            (s'.track t)))

/-- 41_sequencer.md R112: mode 3 has no effect; another mode is selected, then clamp-recompute. -/
def Obligations.SetModeSelectsMode : Prop :=
  ∀ (s : State) (t : TrackId) (m : BitVec 2),
    (m = 3 → exec (.setMode t m) s = .next s) ∧
    (m ≠ 3 → ∃ s', exec (.setMode t m) s = .next s' ∧ OnlyTrack t s s' ∧
      editModeBits (s'.track t).editMode = m ∧
      (s'.track t).clockDivisionIndex = (s.track t).clockDivisionIndex ∧
      (s'.track t).manualHold = (s.track t).manualHold ∧
      Recomputed s.params.euclidBase (s.track t).loopLength.toNat (s.track t).pulseCount.toNat
        (s.track t).rotation.toNat (s.track t).activeStep.toNat (s'.track t))

/-- 41_sequencer.md R113: the division index becomes `min(k, 4)`, then clamp-recompute; on a track whose
active step is in its loop the position stays. -/
def Obligations.SetDivClampsIndex : Prop :=
  ∀ (s : State) (t : TrackId) (k : BitVec 16),
    ∃ s', exec (.setDiv t k) s = .next s' ∧ OnlyTrack t s s' ∧
      (s'.track t).clockDivisionIndex.toNat = min k.toNat 4 ∧
      (s'.track t).editMode = (s.track t).editMode ∧
      (s'.track t).manualHold = (s.track t).manualHold ∧
      Recomputed s.params.euclidBase (s.track t).loopLength.toNat (s.track t).pulseCount.toNat
        (s.track t).rotation.toNat (s.track t).activeStep.toNat (s'.track t)

/-- 41_sequencer.md R114: only `manualHold` of that track changes; no recompute, no trigger. -/
def Obligations.SetHoldWritesHoldOnly : Prop :=
  ∀ (s : State) (t : TrackId) (h : Bool),
    ∃ s', exec (.setHold t h) s = .next s' ∧ OnlyTrack t s s' ∧
      s'.track t = { s.track t with manualHold := h }

/-- 41_sequencer.md R115: the loop length becomes `clamp(k, 1, 16)`, then clamp-recompute. -/
def Obligations.SetLengthClampsLength : Prop :=
  ∀ (s : State) (t : TrackId) (k : BitVec 16),
    ∃ s', exec (.setLength t k) s = .next s' ∧ OnlyTrack t s s' ∧
      (s'.track t).editMode = (s.track t).editMode ∧
      (s'.track t).clockDivisionIndex = (s.track t).clockDivisionIndex ∧
      (s'.track t).manualHold = (s.track t).manualHold ∧
      Recomputed s.params.euclidBase (min (max k.toNat 1) 16) (s.track t).pulseCount.toNat
        (s.track t).rotation.toNat (s.track t).activeStep.toNat (s'.track t)

/-- 41_sequencer.md R116, R117: the pulse count, the rotation, becomes `min(k, loopLength - 1)`, then
clamp-recompute. -/
def Obligations.SetPulsesAndSetRotationClamp : Prop :=
  ∀ (s : State) (t : TrackId) (k : BitVec 16),
    1 ≤ (s.track t).loopLength.toNat → (s.track t).loopLength.toNat ≤ 16 →
    (∃ s', exec (.setPulses t k) s = .next s' ∧ OnlyTrack t s s' ∧
      (s'.track t).editMode = (s.track t).editMode ∧
      (s'.track t).clockDivisionIndex = (s.track t).clockDivisionIndex ∧
      (s'.track t).manualHold = (s.track t).manualHold ∧
      Recomputed s.params.euclidBase (s.track t).loopLength.toNat k.toNat
        (s.track t).rotation.toNat (s.track t).activeStep.toNat (s'.track t)) ∧
    (∃ s', exec (.setRotation t k) s = .next s' ∧ OnlyTrack t s s' ∧
      (s'.track t).editMode = (s.track t).editMode ∧
      (s'.track t).clockDivisionIndex = (s.track t).clockDivisionIndex ∧
      (s'.track t).manualHold = (s.track t).manualHold ∧
      Recomputed s.params.euclidBase (s.track t).loopLength.toNat (s.track t).pulseCount.toNat
        k.toNat (s.track t).activeStep.toNat (s'.track t))

/-- 41_sequencer.md R128: applying clamp-recompute twice gives the same track as applying it once. -/
def Obligations.ClampRecomputeIsIdempotent : Prop :=
  ∀ base (k : Track), clampTrack base (clampTrack base k) = clampTrack base k

/-! ## Ticks and transport -/

/-- 41_sequencer.md R119, R121, R122, R123: in either order, a tick advances by one the active step of
every track whose division it falls on, wrapping at the loop length, and no other track field; it
advances `stepCounter`, 16 to 1; the time base, the memory and the rest of the transport stay. -/
def Obligations.TickAdvancesProcessedTracks : Prop :=
  ∀ s : State, (∀ t, TrackInRange (s.track t)) →
    (∀ t, s.tick.track t = { s.track t with
      activeStep := if fallsOn s.tp.stepCounter (s.track t)
        then BitVec.ofNat 4 (stepAfter (s.track t)) else (s.track t).activeStep }) ∧
    s.tick.tp = { s.tp with
      stepCounter := if s.tp.stepCounter = 16 then 1 else s.tp.stepCounter + 1 } ∧
    s.tick.tb = s.tb ∧ SameBytes s s.tick ∧ SameHost s s.tick

/-- 41_sequencer.md R120, R126 and 60_exceptions.md R205: a tick reports TICK with the `stepCounter` it
ran at, then one TRIG for each track, in track order, whose division it falls on and whose tested step
is set or held; and with the default `VOICE_OF_TRACK` the voice of each such track is triggered once and
every other voice is unchanged. -/
def Obligations.TickGatesSoundingTracks : Prop :=
  ∀ s : State, (∀ t, TrackInRange (s.track t)) →
    (∃ rs, s.tick.out = s.out ++ rs ∧ gatesOf rs =
      .tick s.tp.stepCounter ::
        (([0, 1, 2, 3] : List TrackId).filter fun t =>
          sounds s.params.tickOrder s.tp.stepCounter (s.track t)).map
          fun t => .gate s.params.voiceOfTrack[t]) ∧
    (s.params.voiceOfTrack = #v[0, 1, 2, 3] → ∀ v : VoiceId,
      s.tick.voice v =
        if ∃ t : TrackId, t.val = v.val ∧
          sounds s.params.tickOrder s.tp.stepCounter (s.track t) = true
        then (triggerVoice (s.voice v) (s.currentSample v)).1 else s.voice v)

/-- 42_transport.md R133: a pulse counts only while running; it advances `pulseCounter` modulo 24, and
every pulse that leaves a multiple of 3 runs one tick. -/
def Obligations.ClockCountsPulses : Prop :=
  ∀ s : State,
    (s.tp.running = false → exec .clock s = .next s) ∧
    (s.tp.running = true → ((s.tp.pulseCounter.toNat + 1) % 24) % 3 ≠ 0 →
      ∃ s', exec .clock s = .next s' ∧ OnlyTransport s s' ∧
        s'.tp = { s.tp with
          pulseCounter := BitVec.ofNat 5 ((s.tp.pulseCounter.toNat + 1) % 24) }) ∧
    (s.tp.running = true → ((s.tp.pulseCounter.toNat + 1) % 24) % 3 = 0 →
      exec .clock s = .next (State.tick { s with tp := { s.tp with
        pulseCounter := BitVec.ofNat 5 ((s.tp.pulseCounter.toNat + 1) % 24) } }))

/-- 42_transport.md R131 with 41_sequencer.md R124: START makes the transport external and running,
resets every position and runs one tick at `stepCounter` 1, which processes the tracks at division index
4 alone; `pulseCounter`, the tempo, the time base and the memory stay. -/
def Obligations.StartRunsStartSequence : Prop :=
  ∀ s : State, (∀ t, TrackInRange (s.track t)) →
    ∃ s', exec .start s = .next s' ∧
      s' = State.tick { s with
        tp := { s.tp with mode := .external, running := true, stepCounter := 1 }
        tracks := s.tracks.map fun k => { k with activeStep := 0 } } ∧
      s'.tp = { s.tp with mode := .external, running := true, stepCounter := 2 } ∧
      s'.tb = s.tb ∧ SameBytes s s' ∧ SameHost s s' ∧
      (∀ t, s'.track t = { s.track t with
        activeStep := if (s.track t).clockDivisionIndex = 4 ∧ 1 < (s.track t).loopLength.toNat
          then 1 else 0 }) ∧
      ∃ rs, s'.out = s.out ++ rs ∧ gatesOf rs =
        .tick 1 :: (([0, 1, 2, 3] : List TrackId).filter fun t =>
          sounds s.params.tickOrder 1 { s.track t with activeStep := 0 }).map
          fun t => .gate s.params.voiceOfTrack[t]

/-- 42_transport.md R132: STOP clears `running` and `pulseCounter` and changes nothing else. -/
def Obligations.StopHaltsTransport : Prop :=
  ∀ s : State, ∃ s', exec .stop s = .next s' ∧ OnlyTransport s s' ∧
    s'.tp = { s.tp with running := false, pulseCounter := 0 }

/-- 42_transport.md R135, R136, R141: a strobe advances `nowUs` modulo 2^32; it ticks, and moves
`lastTickUs`, exactly when the gate is open, the tempo is not 0 and the interval has elapsed. -/
def Obligations.StrobeRunsClockCheck : Prop :=
  ∀ s : State,
    let now := s.tb.nowUs + 1
    let due := ((s.params.clockGate = .modeInternal ∧ s.tp.mode = .internal) ∨
        (s.params.clockGate = .notRunning ∧ s.tp.running = false)) ∧
      s.tp.bpm ≠ 0 ∧ 15000000 / s.tp.bpm.toNat ≤ (now - s.tb.lastTickUs).toNat
    (¬ due → ∃ s', exec .usStrobe s = .next s' ∧ OnlyTimeBase s s' ∧
      s'.tb = { s.tb with nowUs := now }) ∧
    (due → exec .usStrobe s =
      .next (State.tick { s with tb := { nowUs := now, lastTickUs := now } }))

/-- 42_transport.md R136, R142: with the gate open and a constant tempo, whatever `nowUs` wraps to: after a
tick the internal clock is silent for `interval - 1` strobes and ticks once at the next; and from any time base
(the gate reopens, or the tempo is set) it first ticks after 1 to `interval` strobes, but where the elapsed
time is 2^32 - 1 and wraps at the first of them, after `interval + 1` (assumption log 21). -/
def Obligations.InternalTicksAreOneIntervalApart : Prop :=
  ∀ s : State, clockGateOpen s.params.clockGate s.tp = true → s.tp.bpm ≠ 0 →
    let interval := 15000000 / s.tp.bpm.toNat
    let elapsed := (s.tb.nowUs - s.tb.lastTickUs).toNat
    let n := strobesToTick interval elapsed
    (s.tb.nowUs = s.tb.lastTickUs → n = interval) ∧
    (elapsed + 1 < 2 ^ 32 → 1 ≤ n ∧ n ≤ interval) ∧
    (elapsed + 1 = 2 ^ 32 → n = interval + 1) ∧
    (∃ t rs, runEvents (List.replicate (n - 1) .usStrobe) s = some (t, rs) ∧ tickCount rs = 0) ∧
    (∃ t rs, runEvents (List.replicate n .usStrobe) s = some (t, rs) ∧ tickCount rs = 1 ∧
      t.tb.nowUs = t.tb.lastTickUs ∧ t.tb.nowUs = s.tb.nowUs + BitVec.ofNat 32 n)

/-- 42_transport.md R143: (a) START followed by 3n clock pulses runs 1 + n ticks; (b) STOP then START
leaves `pulseCounter` 0, `stepCounter` 2 and every position at 0, but at 1 for a track of division index
4 with more than one step. -/
def Obligations.TransportCountingLaws : Prop :=
  (∀ (s : State) (n : Nat), ∃ t rs,
    runEvents (.xport8 0xFA :: List.replicate (3 * n) (.xport8 0xF8)) s = some (t, rs) ∧
      tickCount rs = 1 + n) ∧
  (∀ s : State, (∀ k, TrackInRange (s.track k)) → ∃ t rs,
    runEvents [.xport8 0xFC, .xport8 0xFA] s = some (t, rs) ∧
      t.tp.pulseCounter = 0 ∧ t.tp.stepCounter = 2 ∧
      ∀ k, (t.track k).activeStep =
        if (s.track k).clockDivisionIndex = 4 ∧ 1 < (s.track k).loopLength.toNat then 1 else 0)

/-- 70_reset_and_hazards.md R231, 42_transport.md R132: under the default gate, a stopped external
transport runs no tick and stays stopped, whatever events come, until a START or a reset. -/
def Obligations.StoppedExternalNeverTicks : Prop :=
  ∀ (xs : List Input) (s : State), s.params.clockGate = .modeInternal → s.tp.mode = .external →
    s.tp.running = false → (∀ x ∈ xs, carriesStart x = false ∧ x ≠ .reset) →
    ∃ t rs, runEvents xs s = some (t, rs) ∧ tickCount rs = 0 ∧ t.tp.running = false ∧
      t.tp.mode = .external

/-- 10_state.md R43: an event takes the transport from Internal to External only if it runs START, and
back only if it is the reset. -/
def Obligations.ModeChangesOnlyByStartAndReset : Prop :=
  ∀ (x : Input) (s t : State), perform x s = .next t →
    (s.tp.mode = .internal → carriesStart x = false → t.tp.mode = .internal) ∧
    (s.tp.mode = .external → x ≠ .reset → t.tp.mode = .external) ∧
    (carriesStart x = true → t.tp.mode = .external) ∧ (x = .reset → t.tp.mode = .internal)

/-- 41_sequencer.md R129: sample requests, bus reads and the whole voice engine cannot be seen by the
sequencer: two machines whose sequencers agree, one given the events of the other without its sample
requests and reads, keep agreeing sequencers and drive the same ticks and gates. What a voice makes of a gate
(Start or Retrigger) is the voice's and may differ (43_voice.md R150; assumption log 23). -/
def Obligations.SequencerIsIndependentOfRendering : Prop :=
  ∀ (xs : List Input) (s s' t : State) (rs : List OutRecord), SameSequencer s s' →
    runEvents xs s = some (t, rs) →
    ∃ t' rs', runEvents (xs.filter fun x => !isSampleOrRead x) s' = some (t', rs') ∧
      SameSequencer t t' ∧ gatesOf rs' = gatesOf rs

/-! ## Bus writes -/

/-- 44_host_bus.md R172: a write to CMD runs the operation that bits 31..28 of its word name, on the
operands of 30_encoding.md R71; a write to XPORT runs the event its low byte names, or nothing. -/
def Obligations.WritesToCmdAndXportRunTheirEvent : Prop :=
  ∀ (d : Word) (t : TrackId) (v : VoiceId) (s : State),
    t.val = d.toNat / 2 ^ 24 % 4 → v.val = d.toNat / 2 ^ 24 % 8 →
    let op := d.toNat / 2 ^ 28
    let imm := BitVec.ofNat 16 d.toNat
    let code := d.toNat % 256
    (∃ s', exec (.wrCmd d) s = .next s') ∧ (∃ s', exec (.wrXport d) s = .next s') ∧
    (op = 0x0 → exec (.wrCmd d) s = .next s) ∧
    (op = 0x1 → exec (.wrCmd d) s = exec (.edit t (d.toNat.testBit 0)) s) ∧
    (op = 0x2 → exec (.wrCmd d) s = exec (.setMode t (BitVec.ofNat 2 d.toNat)) s) ∧
    (op = 0x3 → exec (.wrCmd d) s = exec (.setDiv t imm) s) ∧
    (op = 0x4 → exec (.wrCmd d) s = exec (.setHold t (d.toNat.testBit 0)) s) ∧
    (op = 0x5 → exec (.wrCmd d) s = exec (.setLength t imm) s) ∧
    (op = 0x6 → exec (.wrCmd d) s = exec (.setPulses t imm) s) ∧
    (op = 0x7 → exec (.wrCmd d) s = exec (.setRotation t imm) s) ∧
    (op = 0x8 → exec (.wrCmd d) s = exec (.trigger v) s) ∧
    (0x9 ≤ op → exec (.wrCmd d) s = .next s) ∧
    (code = 0xF8 → exec (.wrXport d) s = exec .clock s) ∧
    (code = 0xFA → exec (.wrXport d) s = exec .start s) ∧
    (code = 0xFB → exec (.wrXport d) s = exec .cont s) ∧
    (code = 0xFC → exec (.wrXport d) s = exec .stop s) ∧
    (code ≠ 0xF8 → code ≠ 0xFA → code ≠ 0xFB → code ≠ 0xFC → exec (.wrXport d) s = .next s)

/-- 42_transport.md R137: the whole written word is clamped to 65535; the time base does not move. -/
def Obligations.WriteBpmClamps : Prop :=
  ∀ (d : Word) (s : State), ∃ s', exec (.wrBpm d) s = .next s' ∧ OnlyTransport s s' ∧
    s'.tp = { s.tp with bpm := BitVec.ofNat 16 (min d.toNat 65535) }

/-- 44_host_bus.md R173: EN enables a disabled voice with a length; any other write changes nothing. -/
def Obligations.WriteVctrlEnablesLoadedVoice : Prop :=
  ∀ (v : VoiceId) (d : Word) (s : State),
    (d.getLsbD 0 = true → (s.voice v).enabled = false → 1 ≤ (s.voice v).length.toNat →
      ∃ s', exec (.wrVctrl v d) s = .next s' ∧ OnlyVoice v s s' ∧
        s'.voice v = { s.voice v with enabled := true }) ∧
    (d.getLsbD 0 = false ∨ (s.voice v).enabled = true ∨ (s.voice v).length = 0 →
      exec (.wrVctrl v d) s = .next s)

/-- 44_host_bus.md R174: the length of a disabled voice becomes `min(d, MAX_SAMPLES)`; a write to an
enabled voice changes nothing. -/
def Obligations.WriteVlenClampsWhileDisabled : Prop :=
  ∀ (v : VoiceId) (d : Word) (s : State), s.params.maxSamples ≤ 2 ^ 20 →
    ((s.voice v).enabled = false → ∃ s', exec (.wrVlen v d) s = .next s' ∧ OnlyVoice v s s' ∧
      (s'.voice v).length.toNat = min d.toNat s.params.maxSamples ∧
      s'.voice v = { s.voice v with length := (s'.voice v).length }) ∧
    ((s.voice v).enabled = true → exec (.wrVlen v d) s = .next s)

/-- 44_host_bus.md R175, R177: the stored gain is the written word in [+0.0, 1.0), 1.0 from 1.0 up to
plus infinity, +0.0 for a negative word or a NaN; the stored pan is `min(d, 18)`. -/
def Obligations.WriteVgainAndVpanClamp : Prop :=
  ∀ (v : VoiceId) (d : Word) (s : State),
    (∃ s', exec (.wrVgain v d) s = .next s' ∧ OnlyVoice v s s' ∧
      s'.voice v = { s.voice v with gain :=
        if d.toNat < 0x3F800000 then d
        else if d.toNat ≤ 0x7F800000 then 0x3F800000 else 0x00000000 }) ∧
    (∃ s', exec (.wrVpan v d) s = .next s' ∧ OnlyVoice v s s' ∧
      s'.voice v = { s.voice v with panIndex := BitVec.ofNat 5 (min d.toNat 18) })

/-- 44_host_bus.md R176, for each of the eight windows. -/
def Obligations.WriteSampleStoresWhileDisabled : Prop :=
  ∀ (i : BitVec 20) (d : Word) (s : State),
    WritesWindow 0 i d (.wrSampleV0 i d) s ∧ WritesWindow 1 i d (.wrSampleV1 i d) s ∧
    WritesWindow 2 i d (.wrSampleV2 i d) s ∧ WritesWindow 3 i d (.wrSampleV3 i d) s ∧
    WritesWindow 4 i d (.wrSampleV4 i d) s ∧ WritesWindow 5 i d (.wrSampleV5 i d) s ∧
    WritesWindow 6 i d (.wrSampleV6 i d) s ∧ WritesWindow 7 i d (.wrSampleV7 i d) s

/-- 70_reset_and_hazards.md R227: writes to the sample window and to VLEN of an enabled voice are ignored
without any report, and no event but the reset disables the voice, changes its length, or changes a word
of its sample memory. -/
def Obligations.EnabledVoiceIsLocked : Prop :=
  ∀ (s : State) (v : VoiceId), (s.voice v).enabled = true →
    (∀ (i : BitVec 20) d,
      perform (.busW (BitVec.ofNat 24 ((v.val + 1) * 2 ^ 20 + i.toNat)) d) s = .next s) ∧
    (∀ d, perform (.busW (BitVec.ofNat 24 (0x101 + 8 * v.val)) d) s = .next s) ∧
    (∀ (x : Input) (t : State), x ≠ .reset → perform x s = .next t →
      (t.voice v).enabled = true ∧ (t.voice v).length = (s.voice v).length ∧
        ∀ i, t.sample v i = s.sample v i)

/-- 10_state.md R33: a voice goes from disabled to enabled only by a VCTRL write with EN = 1 while its
length is at least 1. -/
def Obligations.VoiceIsEnabledOnlyByVctrl : Prop :=
  ∀ (x : Input) (s t : State) (v : VoiceId), (s.voice v).enabled = false → perform x s = .next t →
    (t.voice v).enabled = true →
    1 ≤ (s.voice v).length.toNat ∧
      ∃ d, x = .busW (BitVec.ofNat 24 (0x100 + 8 * v.val)) d ∧ d.getLsbD 0 = true

/-- 44_host_bus.md R178, 30_encoding.md R84: the `load` sequence leaves the voice enabled, with the given
samples, their count, the clamped gain and pan, and drives no record. -/
def Obligations.LoadSequenceLoadsVoice : Prop :=
  ∀ (s : State) (v : VoiceId) (xs : List Sample) (gain pan : Word),
    (s.voice v).enabled = false → 1 ≤ xs.length → xs.length ≤ s.params.maxSamples →
    s.params.maxSamples ≤ 2 ^ 20 →
    ∃ t, runEvents (loadEvents v xs gain pan) s = some (t, []) ∧
      (∀ (j : Nat) (h : j < xs.length), t.sample v (BitVec.ofNat 20 j) = xs[j]) ∧
      t.voice v = { s.voice v with
        enabled := true
        length := BitVec.ofNat 21 xs.length
        gain := clampGain gain
        panIndex := BitVec.ofNat 5 (min pan.toNat 18) }

/-! ## Bus reads -/

/-- 20_memory.md R60, R62: the transport, time-base and configuration registers, by their bits. -/
def Obligations.ReadTransportRegisters : Prop :=
  ∀ s : State, s.params.maxSamples ≤ 2 ^ 20 →
    ReadsAs .rdBpm s (BitVec.ofNat 32 s.tp.bpm.toNat) ∧
    ReadsAs .rdTstatus s (BitVec.ofNat 32
      ((if s.tp.mode = .external then 1 else 0) + (if s.tp.running then 2 else 0) +
        2 ^ 8 * s.tp.stepCounter.toNat + 2 ^ 16 * s.tp.pulseCounter.toNat)) ∧
    ReadsAs .rdNowUs s s.tb.nowUs ∧
    ReadsAs .rdLastTickUs s s.tb.lastTickUs ∧
    ReadsAs .rdConfig s (BitVec.ofNat 32
      (4 + 2 ^ 4 * 8 + 2 ^ 8 * 16 +
        (if s.params.tickOrder = .testThenAdvance then 2 ^ 13 else 0) +
        (if s.params.clockGate = .notRunning then 2 ^ 14 else 0))) ∧
    ReadsAs .rdMaxsmp s (BitVec.ofNat 32 s.params.maxSamples)

/-- 20_memory.md R61: TRKt_CFG and TRKt_MASK, by their bits. -/
def Obligations.ReadTrackRegisters : Prop :=
  ∀ (s : State) (t : TrackId),
    ReadsAs (.rdTrkCfg t) s (BitVec.ofNat 32
      ((match (s.track t).editMode with | .density => 0 | .offset => 1 | .length => 2) +
        2 ^ 4 * (s.track t).clockDivisionIndex.toNat +
        (if (s.track t).manualHold then 2 ^ 7 else 0) +
        2 ^ 8 * (s.track t).loopLength.toNat + 2 ^ 16 * (s.track t).pulseCount.toNat +
        2 ^ 20 * (s.track t).rotation.toNat + 2 ^ 24 * (s.track t).activeStep.toNat)) ∧
    ReadsAs (.rdTrkMask t) s (BitVec.ofNat 32 (s.track t).rhythmMask.toNat)

/-- 20_memory.md R60, R63: the voice registers. -/
def Obligations.ReadVoiceRegisters : Prop :=
  ∀ (s : State) (v : VoiceId),
    ReadsAs (.rdVctrl v) s (BitVec.ofNat 32
      ((if (s.voice v).enabled then 1 else 0) + (if (s.voice v).isPlaying then 2 else 0) +
        (if (s.voice v).decayActive then 4 else 0))) ∧
    ReadsAs (.rdVlen v) s (BitVec.ofNat 32 (s.voice v).length.toNat) ∧
    ReadsAs (.rdVgain v) s (s.voice v).gain ∧
    ReadsAs (.rdVpan v) s (BitVec.ofNat 32 (s.voice v).panIndex.toNat) ∧
    ReadsAs (.rdVpos v) s (BitVec.ofNat 32 (s.voice v).playbackPosition.toNat) ∧
    ReadsAs (.rdVdecay v) s (s.voice v).decayAmplitude

/-- 20_memory.md R64, 44_host_bus.md R171: the eight sample windows. At an index that does not exist the
word is unmapped and reads as 0 (20_memory.md R65); that such a read drives `RDATA(0)` while its list of records
is empty is the model's reading of R65 beside R171 (assumption log 4, DEDUCED). -/
def Obligations.ReadSampleWindows : Prop :=
  ∀ (i : BitVec 20) (s : State),
    ReadsWindow 0 i (.rdSampleV0 i) s ∧ ReadsWindow 1 i (.rdSampleV1 i) s ∧
    ReadsWindow 2 i (.rdSampleV2 i) s ∧ ReadsWindow 3 i (.rdSampleV3 i) s ∧
    ReadsWindow 4 i (.rdSampleV4 i) s ∧ ReadsWindow 5 i (.rdSampleV5 i) s ∧
    ReadsWindow 6 i (.rdSampleV6 i) s ∧ ReadsWindow 7 i (.rdSampleV7 i) s

/-! ## Voice engine -/

/-- 43_voice.md R150, R151: TRIGGER on a disabled, an idle and a playing voice. -/
def Obligations.TriggerIgnoresStartsOrRetriggers : Prop :=
  ∀ (s : State) (v : VoiceId),
    ((s.voice v).enabled = false →
      exec (.trigger v) s = .next { s with out := s.out ++ [.trig v .ignored] }) ∧
    ((s.voice v).enabled = true → (s.voice v).isPlaying = false →
      ∃ s', exec (.trigger v) s = .next s' ∧ OnlyVoiceAndRecords v s s' ∧
        s'.voice v = { s.voice v with isPlaying := true } ∧
        s'.out = s.out ++ [.trig v .start]) ∧
    ((s.voice v).enabled = true → (s.voice v).isPlaying = true →
      ∃ s', exec (.trigger v) s = .next s' ∧ OnlyVoiceAndRecords v s s' ∧
        s'.voice v = { s.voice v with
          decayAmplitude := f32mul
            (f32mul (i2f (s.sample v (s.voice v).playbackPosition).toInt) 0x38000000)
            (s.voice v).gain
          decayActive := true
          playbackPosition := 0 } ∧
        s'.out = s.out ++ [.trig v .retrigger])

/-- 43_voice.md R152, R153, R155, R156: what `VoiceSample` does with a voice whose current sample is `x`,
and what it returns. -/
def Obligations.VoiceSampleDecaysThenPlays : Prop :=
  ∀ (floor : F32) (vc : Voice) (x : Sample),
    let runs := vc.decayActive && f32gt (f32abs vc.decayAmplitude) floor
    let d := f32mul vc.decayAmplitude 0x3F7D70A4
    let tail := if runs then f32add 0x00000000 d else 0x00000000
    let a := f32mul (f32add tail (f32mul (i2f x.toInt) 0x38000000)) vc.gain
    let decayed := { vc with
      decayAmplitude := if runs then d else vc.decayAmplitude
      decayActive := runs }
    (vc.enabled = false → voiceSample floor vc x = (vc, false, 0x00000000)) ∧
    (vc.enabled = true → vc.isPlaying = false → voiceSample floor vc x = (decayed, false, tail)) ∧
    (vc.enabled = true → vc.isPlaying = true →
      vc.playbackPosition.toNat + 1 ≠ vc.length.toNat →
      voiceSample floor vc x =
        ({ decayed with playbackPosition := vc.playbackPosition + 1 }, true, a)) ∧
    (vc.enabled = true → vc.isPlaying = true →
      vc.playbackPosition.toNat + 1 = vc.length.toNat →
      voiceSample floor vc x =
        ({ vc with
            isPlaying := false
            decayAmplitude := a
            decayActive := true
            playbackPosition := 0 }, true, a))

/-- 43_voice.md R157, R163: one sample request runs `VoiceSample` once on every voice, on the state before
it, and drives the sums, from +0.0 and in voice order, of the audible voices' panned contributions. -/
def Obligations.SampleRequestMixesAudibleVoices : Prop :=
  ∀ s : State,
    let y := fun v : VoiceId => voiceSample s.params.decayFloor (s.voice v) (s.currentSample v)
    let audible := ([0, 1, 2, 3, 4, 5, 6, 7] : List VoiceId).filter fun v => (y v).2.1
    ∃ s', exec .sampleReq s = .next s' ∧ (∀ v, s'.voice v = (y v).1) ∧
      (∀ t, s'.track t = s.track t) ∧ s'.tp = s.tp ∧ s'.tb = s.tb ∧ SameBytes s s' ∧ SameHost s s' ∧
      s'.out = s.out ++ [.out
        (audible.foldl (fun m v =>
          f32add m (f32mul (y v).2.2 (panLAt s.params (s.voice v).panIndex))) 0x00000000)
        (audible.foldl (fun m v =>
          f32add m (f32mul (y v).2.2 (panRAt s.params (s.voice v).panIndex))) 0x00000000)]

/-- 43_voice.md R154: with no voice playing, whatever tails run, the output is (+0.0, +0.0); the tails
still decay. -/
def Obligations.TailOutlivingItsNoteIsSilent : Prop :=
  ∀ s : State, (∀ v, (s.voice v).isPlaying = false) →
    ∃ s', exec .sampleReq s = .next s' ∧ s'.out = s.out ++ [.out 0x00000000 0x00000000] ∧
      ∀ v, (s.voice v).enabled = true → (s.voice v).decayActive = true →
        (s'.voice v).decayActive
          = f32gt (f32abs (s.voice v).decayAmplitude) s.params.decayFloor ∧
        (s'.voice v).decayAmplitude
          = if f32gt (f32abs (s.voice v).decayAmplitude) s.params.decayFloor
            then f32mul (s.voice v).decayAmplitude 0x3F7D70A4 else (s.voice v).decayAmplitude

/-- 43_voice.md R153: for a normal tail the product with `DECAY_FACTOR` keeps the sign and is strictly
smaller in magnitude. -/
def Obligations.DecayFactorShrinksNormalTail : Prop :=
  ∀ d : F32, f32isFinite d = true → 0x00800000 ≤ f32mag d →
    f32mag (f32mul d decayFactor) < f32mag d ∧ f32sign (f32mul d decayFactor) = f32sign d

/-- 43_voice.md R153: every tail ends, for every floor the spec allows: an enabled voice that is not playing
and has a finite tail has no active tail after some number of sample requests; and from every legal state
with bounded tails, whatever a voice is playing and whatever tail runs under its note, after some number of
sample requests the voice neither plays nor has an active tail. -/
def Obligations.EveryTailEnds : Prop :=
  (∀ (s : State) (v : VoiceId), LegalParams s.params → (s.voice v).enabled = true →
    (s.voice v).isPlaying = false → f32isFinite (s.voice v).decayAmplitude = true →
    ∃ n t rs, runEvents (List.replicate n .sampleReq) s = some (t, rs) ∧
      (t.voice v).decayActive = false) ∧
  (∀ (s : State) (v : VoiceId), Legal s → TailsBounded s →
    ∃ n t rs, runEvents (List.replicate n .sampleReq) s = some (t, rs) ∧
      (t.voice v).isPlaying = false ∧ (t.voice v).decayActive = false)

/-- 00_scope.md R11: a finite sum is a binary32 nearest to the exact sum, and on a tie its last bit is
even (`f32int` counts units of 2^-149). -/
def Obligations.AddRoundsToNearestEven : Prop :=
  ∀ a b c : F32, f32isFinite a = true → f32isFinite b = true → f32isFinite c = true →
    f32isFinite (f32add a b) = true →
    let exact := f32int a + f32int b
    let err := (f32int (f32add a b) - exact).natAbs
    err ≤ (f32int c - exact).natAbs ∧
      (err = (f32int c - exact).natAbs → f32int c ≠ f32int (f32add a b) →
        f32frac (f32add a b) % 2 = 0)

/-- 00_scope.md R11: a finite product is a binary32 nearest to the exact product, and on a tie its last
bit is even (the exact product counts units of 2^-298). -/
def Obligations.MulRoundsToNearestEven : Prop :=
  ∀ a b c : F32, f32isFinite a = true → f32isFinite b = true → f32isFinite c = true →
    f32isFinite (f32mul a b) = true →
    let exact := f32int a * f32int b
    let err := (f32int (f32mul a b) * 2 ^ 149 - exact).natAbs
    err ≤ (f32int c * 2 ^ 149 - exact).natAbs ∧
      (err = (f32int c * 2 ^ 149 - exact).natAbs → f32int c ≠ f32int (f32mul a b) →
        f32frac (f32mul a b) % 2 = 0)

/-- 43_voice.md R162: a stored sample s becomes exactly s / 32768, that is s * 2^134 units of 2^-149. -/
def Obligations.NormalizationIsExact : Prop :=
  ∀ x : Sample, f32isFinite (normalize x) = true ∧ f32int (normalize x) = x.toInt * 2 ^ 134

/-! ## Reset and invariants -/

/-- 10_state.md R52, 70_reset_and_hazards.md R220: what reset leaves, after power-up and after the reset
input at any time; the sample memory is unspecified again (a free value for every byte). -/
def Obligations.ResetRestoresEveryField : Prop :=
  let track : Track :=
    { editMode := .density, loopLength := 16, pulseCount := 0, rotation := 0,
      clockDivisionIndex := 4, rhythmMask := 0, activeStep := 0, manualHold := false }
  let voice : Voice :=
    { enabled := false, length := 0, playbackPosition := 0, gain := 0x3F800000, panIndex := 9,
      isPlaying := false, decayAmplitude := 0, decayActive := false }
  let cleared := fun (t : State) (bpm : BitVec 16) =>
    (∀ k, t.track k = track) ∧ (∀ v, t.voice v = voice) ∧
      t.tp = { mode := .internal, running := false, bpm := bpm, stepCounter := 1,
               pulseCounter := 0 } ∧
      t.tb = { nowUs := 0, lastTickUs := 0 } ∧ t.out = [] ∧ t.readData = none ∧
      ∀ a, t.byteAt a = Config.unwrittenByte t.ramEpoch a
  cleared State.reset 120 ∧
  ∀ s : State, ∃ t, perform .reset s = .next t ∧ cleared t s.params.bpmReset ∧
    t.ramEpoch = s.ramEpoch + 1 ∧ t.params = s.params ∧ t.inputs = s.inputs

/-- The state after reset is legal, and its tails are bounded (10_state.md R31, R42, 43_voice.md R159). -/
def Obligations.ResetIsLegal : Prop := Legal State.reset ∧ TailsBounded State.reset

/-- 10_state.md R31, R42: the invariants of the tracks, the voices, the transport and the sample memory
hold after every event that starts from a state in which they hold, for every allowed value of the
parameters. -/
def Obligations.StepKeepsLegal : Prop :=
  ∀ s t : State, Legal s → step s = .next t → Legal t

/-- 43_voice.md R159: in a legal state whose tails are below 101 in magnitude, every step leaves them
below 101, and drives no output channel of magnitude 808 or more: no overflow and no NaN. -/
def Obligations.StepKeepsTailsBounded : Prop :=
  ∀ s t : State, Legal s → TailsBounded s → step s = .next t →
    TailsBounded t ∧ ∀ r ∈ t.out, RecordBounded r
end

