-- ==== Sys2Proof/Laws/Decode.lean ====
section
/-! SUPPORT. Laws/Decode.lean: the fields of the words the encoder packs. -/

namespace Sys2Proof

open Machine

@[simp] theorem voiceOfBits_bitsOfVoice (v : VoiceId) : voiceOfBits (bitsOfVoice v) = v := by
  revert v; decide

@[simp] theorem trackOfBits_bitsOfTrack (t : TrackId) : trackOfBits (bitsOfTrack t) = t := by
  revert t; decide

@[simp] theorem bitsOfVoice_voiceOfBits (b : BitVec 3) : bitsOfVoice (voiceOfBits b) = b := by
  revert b; decide

@[simp] theorem bitsOfTrack_trackOfBits (b : BitVec 2) : bitsOfTrack (trackOfBits b) = b := by
  revert b; decide

/-! ## Command words -/

/-- `op` of a packed command word. -/
@[simp] theorem cmdOp_packCmd (op tgt : BitVec 4) (imm : BitVec 16) :
    cmdOp (packCmd op tgt imm) = op := by
  unfold cmdOp packCmd
  apply BitVec.eq_of_getLsbD_eq
  intro j hj
  simp only [BitVec.getLsbD_append, BitVec.getLsbD_extractLsb']
  have h1 : ¬ (28 + j < 16) := by omega
  have h2 : ¬ (28 + j - 16 < 8) := by omega
  have h3 : ¬ (28 + j - 16 - 8 < 4) := by omega
  have h4 : 28 + j - 16 - 8 - 4 = j := by omega
  simp [*]

/-- The low bits of `tgt` of a packed command word. -/
theorem target_packCmd (op tgt : BitVec 4) (imm : BitVec 16) (n : Nat) (hn : n ≤ 4) :
    (packCmd op tgt imm).extractLsb' 24 n = tgt.extractLsb' 0 n := by
  unfold packCmd
  apply BitVec.eq_of_getLsbD_eq
  intro j hj
  simp only [BitVec.getLsbD_append, BitVec.getLsbD_extractLsb']
  have h1 : ¬ (24 + j < 16) := by omega
  have h2 : ¬ (24 + j - 16 < 8) := by omega
  have h3 : j < 4 := by omega
  have h4 : 24 + j - 16 - 8 = j := by omega
  simp [*]

/-- The track of a packed track command. -/
@[simp] theorem cmdTrack_packCmd (op : BitVec 4) (t : TrackId) (imm : BitVec 16) :
    cmdTrack (packCmd op (trackTarget t) imm) = t := by
  rw [cmdTrack, target_packCmd _ _ _ _ (by decide)]
  revert t; decide

/-- The voice of a packed TRIGGER. -/
@[simp] theorem cmdVoice_packCmd (op : BitVec 4) (v : VoiceId) (imm : BitVec 16) :
    cmdVoice (packCmd op (voiceTarget v) imm) = v := by
  rw [cmdVoice, target_packCmd _ _ _ _ (by decide)]
  revert v; decide

/-- The low bits of `imm` of a packed command word. -/
theorem immBits_packCmd (op tgt : BitVec 4) (imm : BitVec 16) (n : Nat) (hn : n ≤ 16) :
    (packCmd op tgt imm).extractLsb' 0 n = imm.extractLsb' 0 n := by
  unfold packCmd
  apply BitVec.eq_of_getLsbD_eq
  intro j hj
  have h : j < 16 := by omega
  simp only [BitVec.getLsbD_append, BitVec.getLsbD_extractLsb', Nat.zero_add, h, if_true]

/-- `imm` of a packed command word. -/
@[simp] theorem cmdImm_packCmd (op tgt : BitVec 4) (imm : BitVec 16) :
    cmdImm (packCmd op tgt imm) = imm := by
  rw [cmdImm, immBits_packCmd _ _ _ _ (le_refl _)]
  simp

/-- `imm[0]` of a packed command word. -/
@[simp] theorem cmdFlag_packCmd (op tgt : BitVec 4) (b : Bool) :
    cmdFlag (packCmd op tgt (0#15 ++ BitVec.ofBool b)) = b := by
  unfold cmdFlag packCmd
  simp only [BitVec.getLsbD_append]
  cases b <;> rfl

/-- `imm[1:0]` of a packed command word. -/
@[simp] theorem cmdMode_packCmd (op tgt : BitVec 4) (m : BitVec 2) :
    cmdMode (packCmd op tgt (0#14 ++ m)) = m := by
  rw [cmdMode, immBits_packCmd _ _ _ _ (by decide)]
  revert m; decide

/-! ## Bus addresses -/

@[simp] theorem regionOf_sampleAddr (r : BitVec 4) (i : BitVec 20) : regionOf (sampleAddr r i) = r := by
  unfold regionOf sampleAddr
  apply BitVec.eq_of_getLsbD_eq
  intro j hj
  have h : ¬ (20 + j < 20) := by omega
  have e : 20 + j - 20 = j := by omega
  simp only [BitVec.getLsbD_extractLsb', BitVec.getLsbD_append, h, if_false, e, hj, decide_true,
    Bool.true_and]

@[simp] theorem offsetOf_sampleAddr (r : BitVec 4) (i : BitVec 20) :
    offsetOf (sampleAddr r i) = i := by
  unfold offsetOf sampleAddr
  apply BitVec.eq_of_getLsbD_eq
  intro j hj
  simp only [BitVec.getLsbD_extractLsb', BitVec.getLsbD_append, Nat.zero_add, hj, if_true,
    decide_true, Bool.true_and]

/-- Every field of a voice register's address. -/
theorem voiceRegAddr_fields (v : VoiceId) (k : BitVec 3) :
    regionOf (voiceRegAddr v k) = 0 ∧ isVoiceReg (voiceRegAddr v k) = true ∧
      isTrackReg (voiceRegAddr v k) = false ∧ voiceRegVoice (voiceRegAddr v k) = v ∧
      voiceRegIndex (voiceRegAddr v k) = k ∧ 8 ≤ (voiceRegAddr v k).toNat := by
  revert v k; decide

/-- Every field of a track register's address. -/
theorem trackRegAddr_fields (t : TrackId) (mask : Bool) :
    regionOf (trackRegAddr t mask) = 0 ∧ isTrackReg (trackRegAddr t mask) = true ∧
      trackRegTrack (trackRegAddr t mask) = t ∧ trackRegMask (trackRegAddr t mask) = mask ∧
      8 ≤ (trackRegAddr t mask).toNat := by
  revert t mask; decide

end Sys2Proof
end

