-- ==== Sys2Proof/Laws/State.lean ====
section
/-! SUPPORT. Laws/State.lean: one lemma per field per update of the state, so that no proof unfolds a
record update. -/

namespace Sys2Proof.Machine

/-! ## Fields after an update -/

@[simp] theorem State.emit_params (s : State) (r : OutRecord) :
    (s.emit r).params = s.params := by
  cases r <;> rfl
@[simp] theorem State.emit_tracks (s : State) (r : OutRecord) :
    (s.emit r).tracks = s.tracks := by
  cases r <;> rfl
@[simp] theorem State.emit_voices (s : State) (r : OutRecord) :
    (s.emit r).voices = s.voices := by
  cases r <;> rfl
@[simp] theorem State.emit_mem (s : State) (r : OutRecord) :
    (s.emit r).mem = s.mem := by
  cases r <;> rfl
@[simp] theorem State.emit_ramEpoch (s : State) (r : OutRecord) :
    (s.emit r).ramEpoch = s.ramEpoch := by
  cases r <;> rfl
@[simp] theorem State.emit_tp (s : State) (r : OutRecord) :
    (s.emit r).tp = s.tp := by
  cases r <;> rfl
@[simp] theorem State.emit_tb (s : State) (r : OutRecord) :
    (s.emit r).tb = s.tb := by
  cases r <;> rfl
@[simp] theorem State.emit_inputs (s : State) (r : OutRecord) :
    (s.emit r).inputs = s.inputs := by
  cases r <;> rfl
@[simp] theorem State.emit_tick_out (s : State) (sc : BitVec 5) :
    (s.emit (.tick sc)).out = s.out ++ [.tick sc] := rfl
@[simp] theorem State.emit_trig_out (s : State) (v : VoiceId) (k : TrigKind) :
    (s.emit (.trig v k)).out = s.out ++ [.trig v k] := rfl
@[simp] theorem State.emit_out_out (s : State) (l r : F32) :
    (s.emit (.out l r)).out = s.out ++ [.out l r] := rfl
@[simp] theorem State.emit_rdata_out (s : State) (d : Word) :
    (s.emit (.rdata d)).out = s.out := rfl
@[simp] theorem State.emit_tick_readData (s : State) (sc : BitVec 5) :
    (s.emit (.tick sc)).readData = s.readData := rfl
@[simp] theorem State.emit_trig_readData (s : State) (v : VoiceId) (k : TrigKind) :
    (s.emit (.trig v k)).readData = s.readData := rfl
@[simp] theorem State.emit_out_readData (s : State) (l r : F32) :
    (s.emit (.out l r)).readData = s.readData := rfl
@[simp] theorem State.emit_rdata_readData (s : State) (d : Word) :
    (s.emit (.rdata d)).readData = some d := rfl

@[simp] theorem State.setTrack_params (s : State) (t : TrackId) (k : Track) :
    (s.setTrack t k).params = s.params := rfl
@[simp] theorem State.setTrack_tracks (s : State) (t : TrackId) (k : Track) :
    (s.setTrack t k).tracks = s.tracks.set t k := rfl
@[simp] theorem State.setTrack_voices (s : State) (t : TrackId) (k : Track) :
    (s.setTrack t k).voices = s.voices := rfl
@[simp] theorem State.setTrack_mem (s : State) (t : TrackId) (k : Track) :
    (s.setTrack t k).mem = s.mem := rfl
@[simp] theorem State.setTrack_ramEpoch (s : State) (t : TrackId) (k : Track) :
    (s.setTrack t k).ramEpoch = s.ramEpoch := rfl
@[simp] theorem State.setTrack_tp (s : State) (t : TrackId) (k : Track) :
    (s.setTrack t k).tp = s.tp := rfl
@[simp] theorem State.setTrack_tb (s : State) (t : TrackId) (k : Track) :
    (s.setTrack t k).tb = s.tb := rfl
@[simp] theorem State.setTrack_inputs (s : State) (t : TrackId) (k : Track) :
    (s.setTrack t k).inputs = s.inputs := rfl
@[simp] theorem State.setTrack_out (s : State) (t : TrackId) (k : Track) :
    (s.setTrack t k).out = s.out := rfl
@[simp] theorem State.setTrack_readData (s : State) (t : TrackId) (k : Track) :
    (s.setTrack t k).readData = s.readData := rfl

@[simp] theorem State.setVoice_params (s : State) (v : VoiceId) (x : Voice) :
    (s.setVoice v x).params = s.params := rfl
@[simp] theorem State.setVoice_tracks (s : State) (v : VoiceId) (x : Voice) :
    (s.setVoice v x).tracks = s.tracks := rfl
@[simp] theorem State.setVoice_voices (s : State) (v : VoiceId) (x : Voice) :
    (s.setVoice v x).voices = s.voices.set v x := rfl
@[simp] theorem State.setVoice_mem (s : State) (v : VoiceId) (x : Voice) :
    (s.setVoice v x).mem = s.mem := rfl
@[simp] theorem State.setVoice_ramEpoch (s : State) (v : VoiceId) (x : Voice) :
    (s.setVoice v x).ramEpoch = s.ramEpoch := rfl
@[simp] theorem State.setVoice_tp (s : State) (v : VoiceId) (x : Voice) :
    (s.setVoice v x).tp = s.tp := rfl
@[simp] theorem State.setVoice_tb (s : State) (v : VoiceId) (x : Voice) :
    (s.setVoice v x).tb = s.tb := rfl
@[simp] theorem State.setVoice_inputs (s : State) (v : VoiceId) (x : Voice) :
    (s.setVoice v x).inputs = s.inputs := rfl
@[simp] theorem State.setVoice_out (s : State) (v : VoiceId) (x : Voice) :
    (s.setVoice v x).out = s.out := rfl
@[simp] theorem State.setVoice_readData (s : State) (v : VoiceId) (x : Voice) :
    (s.setVoice v x).readData = s.readData := rfl

@[simp] theorem State.setSample_params (s : State) (v : VoiceId) (i : BitVec 20) (x : Sample) :
    (s.setSample v i x).params = s.params := rfl
@[simp] theorem State.setSample_tracks (s : State) (v : VoiceId) (i : BitVec 20) (x : Sample) :
    (s.setSample v i x).tracks = s.tracks := rfl
@[simp] theorem State.setSample_voices (s : State) (v : VoiceId) (i : BitVec 20) (x : Sample) :
    (s.setSample v i x).voices = s.voices := rfl
@[simp] theorem State.setSample_ramEpoch (s : State) (v : VoiceId) (i : BitVec 20) (x : Sample) :
    (s.setSample v i x).ramEpoch = s.ramEpoch := rfl
@[simp] theorem State.setSample_tp (s : State) (v : VoiceId) (i : BitVec 20) (x : Sample) :
    (s.setSample v i x).tp = s.tp := rfl
@[simp] theorem State.setSample_tb (s : State) (v : VoiceId) (i : BitVec 20) (x : Sample) :
    (s.setSample v i x).tb = s.tb := rfl
@[simp] theorem State.setSample_inputs (s : State) (v : VoiceId) (i : BitVec 20) (x : Sample) :
    (s.setSample v i x).inputs = s.inputs := rfl
@[simp] theorem State.setSample_out (s : State) (v : VoiceId) (i : BitVec 20) (x : Sample) :
    (s.setSample v i x).out = s.out := rfl
@[simp] theorem State.setSample_readData (s : State) (v : VoiceId) (i : BitVec 20) (x : Sample) :
    (s.setSample v i x).readData = s.readData := rfl

@[simp] theorem State.answer_params (s : State) (d : Word) :
    (s.answer d).params = s.params := rfl
@[simp] theorem State.answer_tracks (s : State) (d : Word) :
    (s.answer d).tracks = s.tracks := rfl
@[simp] theorem State.answer_voices (s : State) (d : Word) :
    (s.answer d).voices = s.voices := rfl
@[simp] theorem State.answer_mem (s : State) (d : Word) :
    (s.answer d).mem = s.mem := rfl
@[simp] theorem State.answer_ramEpoch (s : State) (d : Word) :
    (s.answer d).ramEpoch = s.ramEpoch := rfl
@[simp] theorem State.answer_tp (s : State) (d : Word) :
    (s.answer d).tp = s.tp := rfl
@[simp] theorem State.answer_tb (s : State) (d : Word) :
    (s.answer d).tb = s.tb := rfl
@[simp] theorem State.answer_inputs (s : State) (d : Word) :
    (s.answer d).inputs = s.inputs := rfl
@[simp] theorem State.answer_out (s : State) (d : Word) :
    (s.answer d).out = s.out := rfl
@[simp] theorem State.answer_readData (s : State) (d : Word) :
    (s.answer d).readData = some d := rfl

@[simp] theorem State.present_params (s : State) (xs : List Input) :
    (s.present xs).params = s.params := rfl
@[simp] theorem State.present_tracks (s : State) (xs : List Input) :
    (s.present xs).tracks = s.tracks := rfl
@[simp] theorem State.present_voices (s : State) (xs : List Input) :
    (s.present xs).voices = s.voices := rfl
@[simp] theorem State.present_mem (s : State) (xs : List Input) :
    (s.present xs).mem = s.mem := rfl
@[simp] theorem State.present_ramEpoch (s : State) (xs : List Input) :
    (s.present xs).ramEpoch = s.ramEpoch := rfl
@[simp] theorem State.present_tp (s : State) (xs : List Input) :
    (s.present xs).tp = s.tp := rfl
@[simp] theorem State.present_tb (s : State) (xs : List Input) :
    (s.present xs).tb = s.tb := rfl
@[simp] theorem State.present_inputs (s : State) (xs : List Input) :
    (s.present xs).inputs = xs := rfl
@[simp] theorem State.present_out (s : State) (xs : List Input) :
    (s.present xs).out = s.out := rfl
@[simp] theorem State.present_readData (s : State) (xs : List Input) :
    (s.present xs).readData = s.readData := rfl

@[simp] theorem State.takeInput_params (s : State) (rest : List Input) :
    (s.takeInput rest).params = s.params := rfl
@[simp] theorem State.takeInput_tracks (s : State) (rest : List Input) :
    (s.takeInput rest).tracks = s.tracks := rfl
@[simp] theorem State.takeInput_voices (s : State) (rest : List Input) :
    (s.takeInput rest).voices = s.voices := rfl
@[simp] theorem State.takeInput_mem (s : State) (rest : List Input) :
    (s.takeInput rest).mem = s.mem := rfl
@[simp] theorem State.takeInput_ramEpoch (s : State) (rest : List Input) :
    (s.takeInput rest).ramEpoch = s.ramEpoch := rfl
@[simp] theorem State.takeInput_tp (s : State) (rest : List Input) :
    (s.takeInput rest).tp = s.tp := rfl
@[simp] theorem State.takeInput_tb (s : State) (rest : List Input) :
    (s.takeInput rest).tb = s.tb := rfl
@[simp] theorem State.takeInput_inputs (s : State) (rest : List Input) :
    (s.takeInput rest).inputs = rest := rfl
@[simp] theorem State.takeInput_out (s : State) (rest : List Input) :
    (s.takeInput rest).out = [] := rfl
@[simp] theorem State.takeInput_readData (s : State) (rest : List Input) :
    (s.takeInput rest).readData = none := rfl

@[simp] theorem State.idle_params (s : State) : s.idle.params = s.params := rfl
@[simp] theorem State.idle_tracks (s : State) : s.idle.tracks = s.tracks := rfl
@[simp] theorem State.idle_voices (s : State) : s.idle.voices = s.voices := rfl
@[simp] theorem State.idle_mem (s : State) : s.idle.mem = s.mem := rfl
@[simp] theorem State.idle_ramEpoch (s : State) : s.idle.ramEpoch = s.ramEpoch := rfl
@[simp] theorem State.idle_tp (s : State) : s.idle.tp = s.tp := rfl
@[simp] theorem State.idle_tb (s : State) : s.idle.tb = s.tb := rfl
@[simp] theorem State.idle_inputs (s : State) : s.idle.inputs = s.inputs := rfl
@[simp] theorem State.idle_out (s : State) : s.idle.out = [] := rfl
@[simp] theorem State.idle_readData (s : State) : s.idle.readData = none := rfl

@[simp] theorem resetState_params (p : Params) (e : Nat) (xs : List Input) :
    (resetState p e xs).params = p := rfl
@[simp] theorem resetState_tracks (p : Params) (e : Nat) (xs : List Input) :
    (resetState p e xs).tracks = Vector.replicate numTracks trackReset := rfl
@[simp] theorem resetState_voices (p : Params) (e : Nat) (xs : List Input) :
    (resetState p e xs).voices = Vector.replicate numVoices voiceReset := rfl
@[simp] theorem resetState_mem (p : Params) (e : Nat) (xs : List Input) :
    (resetState p e xs).mem = [] := rfl
@[simp] theorem resetState_ramEpoch (p : Params) (e : Nat) (xs : List Input) :
    (resetState p e xs).ramEpoch = e := rfl
@[simp] theorem resetState_tp (p : Params) (e : Nat) (xs : List Input) :
    (resetState p e xs).tp = transportReset p.bpmReset := rfl
@[simp] theorem resetState_tb (p : Params) (e : Nat) (xs : List Input) :
    (resetState p e xs).tb = timeBaseReset := rfl
@[simp] theorem resetState_inputs (p : Params) (e : Nat) (xs : List Input) :
    (resetState p e xs).inputs = xs := rfl
@[simp] theorem resetState_out (p : Params) (e : Nat) (xs : List Input) :
    (resetState p e xs).out = [] := rfl
@[simp] theorem resetState_readData (p : Params) (e : Nat) (xs : List Input) :
    (resetState p e xs).readData = none := rfl

/-! ## Tracks and voices read back -/

@[simp] theorem State.track_setTrack_self (s : State) (t : TrackId) (k : Track) :
    (s.setTrack t k).track t = k := by
  simp [State.track, State.setTrack]

theorem State.track_setTrack_other (s : State) (t u : TrackId) (k : Track) (h : u ≠ t) :
    (s.setTrack t k).track u = s.track u := by
  have : t.val ≠ u.val := fun e => h (Fin.ext e.symm)
  simp [State.track, State.setTrack, this]

theorem State.track_setTrack (s : State) (t u : TrackId) (k : Track) :
    (s.setTrack t k).track u = if u = t then k else s.track u := by
  by_cases h : u = t
  · subst h; simp
  · simp [h, State.track_setTrack_other]

@[simp] theorem State.voice_setVoice_self (s : State) (v : VoiceId) (x : Voice) :
    (s.setVoice v x).voice v = x := by
  simp [State.voice, State.setVoice]

theorem State.voice_setVoice_other (s : State) (v u : VoiceId) (x : Voice) (h : u ≠ v) :
    (s.setVoice v x).voice u = s.voice u := by
  have : v.val ≠ u.val := fun e => h (Fin.ext e.symm)
  simp [State.voice, State.setVoice, this]

theorem State.voice_setVoice (s : State) (v u : VoiceId) (x : Voice) :
    (s.setVoice v x).voice u = if u = v then x else s.voice u := by
  by_cases h : u = v
  · subst h; simp
  · simp [h, State.voice_setVoice_other]

@[simp] theorem State.voice_setTrack (s : State) (t : TrackId) (k : Track) (v : VoiceId) :
    (s.setTrack t k).voice v = s.voice v := rfl
@[simp] theorem State.track_setVoice (s : State) (v : VoiceId) (x : Voice) (t : TrackId) :
    (s.setVoice v x).track t = s.track t := rfl
@[simp] theorem State.track_emit (s : State) (r : OutRecord) (t : TrackId) :
    (s.emit r).track t = s.track t := by
  cases r <;> rfl
@[simp] theorem State.voice_emit (s : State) (r : OutRecord) (v : VoiceId) :
    (s.emit r).voice v = s.voice v := by
  cases r <;> rfl
@[simp] theorem State.track_answer (s : State) (d : Word) (t : TrackId) :
    (s.answer d).track t = s.track t := rfl
@[simp] theorem State.voice_answer (s : State) (d : Word) (v : VoiceId) :
    (s.answer d).voice v = s.voice v := rfl
@[simp] theorem State.track_setSample (s : State) (v : VoiceId) (i : BitVec 20) (x : Sample)
    (t : TrackId) : (s.setSample v i x).track t = s.track t := rfl
@[simp] theorem State.voice_setSample (s : State) (v : VoiceId) (i : BitVec 20) (x : Sample)
    (u : VoiceId) : (s.setSample v i x).voice u = s.voice u := rfl
@[simp] theorem resetState_track (p : Params) (e : Nat) (xs : List Input) (t : TrackId) :
    (resetState p e xs).track t = trackReset := by
  simp [State.track]
@[simp] theorem resetState_voice (p : Params) (e : Nat) (xs : List Input) (v : VoiceId) :
    (resetState p e xs).voice v = voiceReset := by
  simp [State.voice]

/-! ## The sample memory depends on the cells and the reset count alone -/

theorem State.byteAt_congr {s s' : State} (hm : s'.mem = s.mem) (he : s'.ramEpoch = s.ramEpoch)
    (a : Nat) : s'.byteAt a = s.byteAt a := by
  simp only [State.byteAt, hm, he]

theorem State.sample_congr {s s' : State} (hm : s'.mem = s.mem) (he : s'.ramEpoch = s.ramEpoch)
    (v : VoiceId) (i : BitVec 20) : s'.sample v i = s.sample v i := by
  simp only [State.sample, State.byteAt_congr hm he]

@[simp] theorem State.byteAt_setTrack (s : State) (t : TrackId) (k : Track) (a : Nat) :
    (s.setTrack t k).byteAt a = s.byteAt a := rfl
@[simp] theorem State.byteAt_setVoice (s : State) (v : VoiceId) (x : Voice) (a : Nat) :
    (s.setVoice v x).byteAt a = s.byteAt a := rfl
@[simp] theorem State.byteAt_emit (s : State) (r : OutRecord) (a : Nat) :
    (s.emit r).byteAt a = s.byteAt a := by
  cases r <;> rfl
@[simp] theorem State.sample_setTrack (s : State) (t : TrackId) (k : Track) (v : VoiceId)
    (i : BitVec 20) : (s.setTrack t k).sample v i = s.sample v i := rfl
@[simp] theorem State.sample_setVoice (s : State) (u : VoiceId) (x : Voice) (v : VoiceId)
    (i : BitVec 20) : (s.setVoice u x).sample v i = s.sample v i := rfl
@[simp] theorem State.sample_emit (s : State) (r : OutRecord) (v : VoiceId) (i : BitVec 20) :
    (s.emit r).sample v i = s.sample v i := by
  cases r <;> rfl

/-- Two states with equal fields are equal. -/
theorem State.eq_of_fields {s s' : State} (hp : s'.params = s.params) (ht : s'.tracks = s.tracks)
    (hv : s'.voices = s.voices) (hm : s'.mem = s.mem) (he : s'.ramEpoch = s.ramEpoch)
    (htp : s'.tp = s.tp) (htb : s'.tb = s.tb) (hi : s'.inputs = s.inputs) (ho : s'.out = s.out)
    (hr : s'.readData = s.readData) : s' = s := by
  cases s; cases s'; simp_all

/-- The tracks agree when every track does. -/
theorem State.tracks_eq {s s' : State} (h : ∀ t, s'.track t = s.track t) : s'.tracks = s.tracks := by
  apply Vector.ext
  intro i hi
  exact h ⟨i, hi⟩

/-- The voices agree when every voice does. -/
theorem State.voices_eq {s s' : State} (h : ∀ v, s'.voice v = s.voice v) : s'.voices = s.voices := by
  apply Vector.ext
  intro i hi
  exact h ⟨i, hi⟩

end Sys2Proof.Machine
end

