-- ==== Sys2Proof/Laws/Memory.lean ====
section
/-! SUPPORT. Laws/Memory.lean: what the sample memory answers, and that writing keeps its canonical
form. -/

namespace Sys2Proof.Machine

/-- A read at the address just written gives the byte written. -/
@[simp] theorem memRead_memWrite_self (m : List Host.Cell) (a : Nat) (b : Byte) :
    memRead (memWrite m a b) a = some b := by
  induction m with
  | nil => simp [memWrite, memRead]
  | cons c rest ih =>
    by_cases h1 : a < c.1
    · simp [memWrite, memRead, h1]
    · by_cases h2 : a = c.1
      · simp [memWrite, memRead, h2]
      · have h3 : c.1 ≠ a := fun e => h2 e.symm
        simp [memWrite, memRead, h1, h2, h3, ih]

/-- A read at any other address gives what it gave. -/
theorem memRead_memWrite_other (m : List Host.Cell) (a x : Nat) (b : Byte) (hx : x ≠ a) :
    memRead (memWrite m a b) x = memRead m x := by
  have hx' : a ≠ x := fun e => hx e.symm
  induction m with
  | nil => simp [memWrite, memRead, hx']
  | cons c rest ih =>
    by_cases h1 : a < c.1
    · simp [memWrite, memRead, h1, hx']
    · by_cases h2 : a = c.1
      · have h3 : c.1 ≠ x := fun e => hx' (h2.trans e)
        simp [memWrite, memRead, h2, h3]
      · simp only [memWrite, h1, h2, if_false, memRead, ih]

/-- An entry of the list after a write is the one written or one that was there. -/
theorem mem_memWrite {m : List Host.Cell} {a : Nat} {b : Byte} {c : Host.Cell}
    (h : c ∈ memWrite m a b) : c = (a, b) ∨ c ∈ m := by
  induction m with
  | nil => simpa [memWrite] using h
  | cons d rest ih =>
    by_cases h1 : a < d.1
    · simpa [memWrite, h1] using h
    · by_cases h2 : a = d.1
      · simp only [memWrite, h2, lt_irrefl, if_false, if_true, List.mem_cons] at h
        rcases h with h | h
        · exact .inl (by rw [h, h2])
        · exact .inr (List.mem_cons_of_mem _ h)
      · simp only [memWrite, h1, h2, if_false, List.mem_cons] at h
        rcases h with h | h
        · exact .inr (by simp [h])
        · rcases ih h with h | h
          · exact .inl h
          · exact .inr (List.mem_cons_of_mem _ h)

/-- The canonical form of a longer list: the head is below every later address. -/
theorem memWf_cons_iff (c : Host.Cell) (rest : List Host.Cell) :
    memWf (c :: rest) = true ↔ (∀ d ∈ rest, c.1 < d.1) ∧ memWf rest = true := by
  induction rest generalizing c with
  | nil => simp [memWf]
  | cons d rest ih =>
    have hstep : memWf (c :: d :: rest) = true ↔ c.1 < d.1 ∧ memWf (d :: rest) = true := by
      simp [memWf]
    rw [hstep]
    constructor
    · rintro ⟨hlt, hw⟩
      refine ⟨?_, hw⟩
      intro e he
      rcases List.mem_cons.mp he with rfl | he
      · exact hlt
      · exact lt_trans hlt ((ih d).mp hw |>.1 e he)
    · rintro ⟨hall, hw⟩
      exact ⟨hall d (by simp), hw⟩

/-- A write keeps the canonical form. -/
theorem memWf_memWrite {m : List Host.Cell} (a : Nat) (b : Byte) (h : memWf m = true) :
    memWf (memWrite m a b) = true := by
  induction m with
  | nil => simp [memWrite, memWf]
  | cons c rest ih =>
    obtain ⟨hall, hw⟩ := (memWf_cons_iff c rest).mp h
    by_cases h1 : a < c.1
    · simp only [memWrite, h1, if_true]
      refine (memWf_cons_iff _ _).mpr ⟨?_, h⟩
      intro d hd
      rcases List.mem_cons.mp hd with rfl | hd
      · exact h1
      · exact lt_trans h1 (hall d hd)
    · by_cases h2 : a = c.1
      · simp only [memWrite, h2, lt_irrefl, if_false, if_true]
        exact (memWf_cons_iff _ _).mpr ⟨hall, hw⟩
      · simp only [memWrite, h1, h2, if_false]
        refine (memWf_cons_iff _ _).mpr ⟨?_, ih hw⟩
        intro d hd
        rcases mem_memWrite hd with rfl | hd
        · exact lt_of_le_of_ne (not_lt.mp h1) (fun e => h2 e.symm)
        · exact hall d hd

/-- The memory after reset has the canonical form. -/
theorem memWf_reset : memWf State.reset.mem = true := rfl

/-! ## The block's view of it -/

/-- A sample just stored reads back. -/
theorem State.sample_setSample_self (s : State) (v : VoiceId) (i : BitVec 20) (x : Sample) :
    (s.setSample v i x).sample v i = x := by
  have h : sampleByteAddr v i ≠ sampleByteAddr v i + 1 := by omega
  have e : x.extractLsb' 8 8 ++ x.extractLsb' 0 8 = x := by
    apply BitVec.eq_of_getLsbD_eq
    intro j hj
    simp only [BitVec.getLsbD_append, BitVec.getLsbD_extractLsb']
    by_cases h8 : j < 8
    · simp [h8]
    · have e8 : 8 + (j - 8) = j := by omega
      have l8 : j - 8 < 8 := by omega
      simp [h8, e8, l8]
  simp only [State.sample, State.byteAt, State.setSample, memRead_memWrite_self,
    memRead_memWrite_other _ _ _ _ h, Option.getD_some]
  exact e

/-- A byte outside a stored sample reads as before. -/
theorem State.byteAt_setSample_other (s : State) (v : VoiceId) (i : BitVec 20) (x : Sample) (a : Nat)
    (h0 : a ≠ sampleByteAddr v i) (h1 : a ≠ sampleByteAddr v i + 1) :
    (s.setSample v i x).byteAt a = s.byteAt a := by
  simp only [State.byteAt, State.setSample, memRead_memWrite_other _ _ _ _ h1,
    memRead_memWrite_other _ _ _ _ h0]

/-- Two samples whose bytes meet are the same sample. -/
theorem sampleByteAddr_inj {v u : VoiceId} {i j : BitVec 20}
    (h : sampleByteAddr v i / 4 = sampleByteAddr u j / 4) : v = u ∧ i = j := by
  simp only [sampleByteAddr] at h
  have hi := i.isLt
  have hj := j.isLt
  have hv : v.val = u.val := by omega
  have hij : i.toNat = j.toNat := by omega
  exact ⟨Fin.ext hv, BitVec.eq_of_toNat_eq hij⟩

/-- Another sample reads as before. -/
theorem State.sample_setSample_other (s : State) (v u : VoiceId) (i j : BitVec 20) (x : Sample)
    (h : ¬(u = v ∧ j = i)) : (s.setSample v i x).sample u j = s.sample u j := by
  have hne : sampleByteAddr u j / 4 ≠ sampleByteAddr v i / 4 := fun e => h (sampleByteAddr_inj e)
  have h4 : ∀ (w : VoiceId) (n : BitVec 20), sampleByteAddr w n % 4 = 0 := fun w n => by
    simp [sampleByteAddr]
  have hu := h4 u j
  have hv := h4 v i
  simp only [State.sample]
  rw [State.byteAt_setSample_other, State.byteAt_setSample_other] <;> omega

end Sys2Proof.Machine
end

