-- ==== Sys2Proof/Laws/Ops.lean ====
section
/-! SUPPORT. Laws/Ops.lean: for each shared operation, what it does, once: a proof cites these lemmas and
unfolds no operation. -/

namespace Sys2Proof.Machine

/-! ## Literals -/

@[simp] theorem maxSteps_eq : maxSteps = 16 := rfl
@[simp] theorem stepCycle_eq : stepCycle = 16 := rfl
@[simp] theorem ppqn_eq : ppqn = 24 := rfl
@[simp] theorem pulsesPerTick_eq : pulsesPerTick = 3 := rfl
@[simp] theorem tickConstUs_eq : tickConstUs = 15000000 := rfl
@[simp] theorem divIndexMax_eq : divIndexMax = 4 := rfl
@[simp] theorem panMax_eq : panMax = 18 := rfl
@[simp] theorem sampleScaleInverse_eq : sampleScaleInverse = 0x38000000 := by decide
@[simp] theorem trackIds_eq : trackIds = [0, 1, 2, 3] := by decide
@[simp] theorem voiceIds_eq : voiceIds = [0, 1, 2, 3, 4, 5, 6, 7] := by decide

/-- `DIV_RATIO` of a legal index. -/
theorem divRatio_eq (k : BitVec 3) (h : k.toNat ≤ 4) : divRatio k = 2 ^ (4 - k.toNat) := by
  unfold divRatio
  generalize k.toNat = n at h
  interval_cases n <;> rfl

/-! ## Operands -/

theorem clampStep_toNat (k : Nat) (len : BitVec 5) (h : min k (len.toNat - 1) < 16) :
    (clampStep k len).toNat = min k (len.toNat - 1) := by
  simp only [clampStep, BitVec.toNat_ofNat]
  exact Nat.mod_eq_of_lt h

/-- A stored step is below the loop length, whatever was asked for. -/
theorem clampStep_le (k : Nat) (len : BitVec 5) (h : len.toNat ≤ 16) :
    (clampStep k len).toNat ≤ len.toNat - 1 := by
  rw [clampStep_toNat k len (by omega)]
  exact Nat.min_le_right _ _

/-- A field of four bits, clamped. -/
theorem clampStep_field (x : BitVec 4) (len : BitVec 5) :
    (clampStep x.toNat len).toNat = min x.toNat (len.toNat - 1) :=
  clampStep_toNat _ _ (lt_of_le_of_lt (Nat.min_le_left _ _) x.isLt)

theorem clampLength_toNat (k : Nat) : (clampLength k).toNat = min (max k 1) 16 := by
  simp only [clampLength, maxSteps, BitVec.toNat_ofNat]
  exact Nat.mod_eq_of_lt (by omega)

theorem clampDivision_toNat (k : BitVec 16) : (clampDivision k).toNat = min k.toNat 4 := by
  simp only [clampDivision, divIndexMax_eq, BitVec.toNat_ofNat]
  exact Nat.mod_eq_of_lt (by omega)

theorem clampPan_toNat (d : Word) : (clampPan d).toNat = min d.toNat 18 := by
  simp only [clampPan, panMax_eq, BitVec.toNat_ofNat]
  exact Nat.mod_eq_of_lt (by omega)

theorem clampVlen_toNat (n : Nat) (d : Word) (h : n ≤ 2 ^ 20) :
    (clampVlen n d).toNat = min d.toNat n := by
  simp only [clampVlen, BitVec.toNat_ofNat]
  exact Nat.mod_eq_of_lt (by omega)

theorem editStep_toNat (x : BitVec 4) (dec : Bool) (len : BitVec 5) (h : len.toNat ≤ 16) :
    (editStep x dec len).toNat
      = if dec then min (x.toNat - 1) (len.toNat - 1) else min (x.toNat + 1) (len.toNat - 1) := by
  have hx := x.isLt
  cases dec <;> simp only [editStep, editDelta, clampInt, BitVec.toNat_ofNat, if_true, if_false,
    Bool.false_eq_true] <;> omega

theorem editLength_toNat (len : BitVec 5) (dec : Bool) (h1 : 1 ≤ len.toNat) (h : len.toNat ≤ 16) :
    (editLength len dec).toNat
      = if dec then max (len.toNat - 1) 1 else min (len.toNat + 1) 16 := by
  cases dec <;> simp only [editLength, editDelta, clampInt, maxSteps, BitVec.toNat_ofNat, if_true,
    if_false, Bool.false_eq_true] <;> omega

/-! ## Clamp-recompute -/

/-- Every field of a track after clamp-recompute. -/
theorem clampTrack_fields (base : EuclidBase) (k : Track) :
    (clampTrack base k).editMode = k.editMode ∧
    (clampTrack base k).clockDivisionIndex = k.clockDivisionIndex ∧
    (clampTrack base k).manualHold = k.manualHold ∧
    (clampTrack base k).loopLength = k.loopLength ∧
    (clampTrack base k).pulseCount = clampStep k.pulseCount.toNat k.loopLength ∧
    (clampTrack base k).rotation = clampStep k.rotation.toNat k.loopLength ∧
    (clampTrack base k).activeStep = clampStep k.activeStep.toNat k.loopLength ∧
    (clampTrack base k).rhythmMask = generate base k.loopLength.toNat
      (clampStep k.pulseCount.toNat k.loopLength).toNat
      (clampStep k.rotation.toNat k.loopLength).toNat :=
  ⟨rfl, rfl, rfl, rfl, rfl, rfl, rfl, rfl⟩

/-- An edit changes its own track alone. -/
theorem editTrack_onlyTrack (s : State) (t : TrackId) (f : Track → Track) :
    OnlyTrack t s (s.editTrack t f) :=
  ⟨fun u h => s.track_setTrack_other t u _ h, fun _ => rfl, fun _ => rfl, rfl, rfl, rfl, rfl, rfl,
    rfl, rfl⟩

@[simp] theorem track_editTrack_self (s : State) (t : TrackId) (f : Track → Track) :
    (s.editTrack t f).track t = clampTrack s.params.euclidBase (f (s.track t)) := by
  simp [State.editTrack]

/-- A write of one track changes that track alone. -/
theorem setTrack_onlyTrack (s : State) (t : TrackId) (k : Track) : OnlyTrack t s (s.setTrack t k) :=
  ⟨fun u h => s.track_setTrack_other t u _ h, fun _ => rfl, fun _ => rfl, rfl, rfl, rfl, rfl, rfl,
    rfl, rfl⟩

/-- A write of one voice changes that voice alone. -/
theorem setVoice_onlyVoice (s : State) (v : VoiceId) (x : Voice) : OnlyVoice v s (s.setVoice v x) :=
  ⟨fun _ => rfl, fun u h => s.voice_setVoice_other v u _ h, fun _ => rfl, rfl, rfl, rfl, rfl, rfl,
    rfl, rfl⟩

/-- A stored sample changes its two bytes alone. -/
theorem setSample_onlyBytes (s : State) (v : VoiceId) (i : BitVec 20) (x : Sample) :
    OnlyBytes (sampleByteAddr v i) s (s.setSample v i x) :=
  ⟨fun _ => rfl, fun _ => rfl, fun b h0 h1 => s.byteAt_setSample_other v i x b h0 h1, rfl, rfl, rfl,
    rfl, rfl, rfl, rfl⟩

/-- Writing back what a voice holds changes nothing. -/
@[simp] theorem setVoice_voice (s : State) (v : VoiceId) : s.setVoice v (s.voice v) = s := by
  refine State.eq_of_fields rfl rfl ?_ rfl rfl rfl rfl rfl rfl rfl
  refine State.voices_eq fun u => ?_
  by_cases h : u = v
  · subst h; simp
  · exact s.voice_setVoice_other v u _ h

/-! ## What the sequencer's operations leave alone -/

/-- Nothing but the voices and the records changes. -/
structure VoicesAndRecordsOnly (s s' : State) : Prop where
  params : s'.params = s.params
  tracks : s'.tracks = s.tracks
  mem : s'.mem = s.mem
  ramEpoch : s'.ramEpoch = s.ramEpoch
  tp : s'.tp = s.tp
  tb : s'.tb = s.tb
  inputs : s'.inputs = s.inputs
  readData : s'.readData = s.readData

/-- Nothing but the tracks, the voices and the records changes. -/
structure TracksVoicesRecordsOnly (s s' : State) : Prop where
  params : s'.params = s.params
  mem : s'.mem = s.mem
  ramEpoch : s'.ramEpoch = s.ramEpoch
  tp : s'.tp = s.tp
  tb : s'.tb = s.tb
  inputs : s'.inputs = s.inputs
  readData : s'.readData = s.readData

theorem VoicesAndRecordsOnly.weaken {s s' : State} (h : VoicesAndRecordsOnly s s') :
    TracksVoicesRecordsOnly s s' :=
  ⟨h.params, h.mem, h.ramEpoch, h.tp, h.tb, h.inputs, h.readData⟩

theorem TracksVoicesRecordsOnly.refl (s : State) : TracksVoicesRecordsOnly s s :=
  ⟨rfl, rfl, rfl, rfl, rfl, rfl, rfl⟩

theorem TracksVoicesRecordsOnly.trans {s s' s'' : State} (h : TracksVoicesRecordsOnly s s')
    (h' : TracksVoicesRecordsOnly s' s'') : TracksVoicesRecordsOnly s s'' :=
  ⟨h'.params.trans h.params, h'.mem.trans h.mem, h'.ramEpoch.trans h.ramEpoch, h'.tp.trans h.tp,
    h'.tb.trans h.tb, h'.inputs.trans h.inputs, h'.readData.trans h.readData⟩

/-- A trigger touches its voice and the records. -/
theorem trigger_only (s : State) (v : VoiceId) : VoicesAndRecordsOnly s (s.trigger v) :=
  ⟨rfl, rfl, rfl, rfl, rfl, rfl, rfl, rfl⟩

@[simp] theorem track_trigger (s : State) (v : VoiceId) (t : TrackId) :
    (s.trigger v).track t = s.track t := rfl

@[simp] theorem voice_trigger_self (s : State) (v : VoiceId) :
    (s.trigger v).voice v = (triggerVoice (s.voice v) (s.currentSample v)).1 := by
  simp [State.trigger]

theorem voice_trigger_other (s : State) (v u : VoiceId) (h : u ≠ v) :
    (s.trigger v).voice u = s.voice u := by
  simp [State.trigger, State.voice_setVoice_other _ _ _ _ h]

@[simp] theorem trigger_out (s : State) (v : VoiceId) :
    (s.trigger v).out
      = s.out ++ [.trig v (triggerVoice (s.voice v) (s.currentSample v)).2] := rfl

/-- A gate triggers its track's voice or does nothing. -/
theorem gateTrack_cases (s : State) (t : TrackId) :
    (gateOpen (s.track t) = true ∧ s.gateTrack t = s.trigger (s.voiceOf t)) ∨
      (gateOpen (s.track t) = false ∧ s.gateTrack t = s) := by
  unfold State.gateTrack
  cases h : gateOpen (s.track t) <;> simp

theorem gateTrack_only (s : State) (t : TrackId) : VoicesAndRecordsOnly s (s.gateTrack t) := by
  rcases gateTrack_cases s t with ⟨_, h⟩ | ⟨_, h⟩ <;> rw [h]
  · exact trigger_only _ _
  · exact ⟨rfl, rfl, rfl, rfl, rfl, rfl, rfl, rfl⟩

@[simp] theorem track_gateTrack (s : State) (t u : TrackId) :
    (s.gateTrack t).track u = s.track u := by
  simp only [State.track, (gateTrack_only s t).tracks]

/-- What a tick does with one track: nothing, or an advance and a gate in the machine's order. -/
theorem tickTrack_cases (sc : BitVec 5) (s : State) (t : TrackId) :
    (processedAt sc (s.track t) = false ∧ s.tickTrack sc t = s) ∨
    (processedAt sc (s.track t) = true ∧
      ((s.params.tickOrder = .advanceThenTest ∧ s.tickTrack sc t = (s.advance t).gateTrack t) ∨
       (s.params.tickOrder = .testThenAdvance ∧ s.tickTrack sc t = (s.gateTrack t).advance t))) := by
  unfold State.tickTrack
  cases h : processedAt sc (s.track t)
  · simp
  · cases ho : s.params.tickOrder <;> simp

theorem tickTrack_only (sc : BitVec 5) (s : State) (t : TrackId) :
    TracksVoicesRecordsOnly s (s.tickTrack sc t) := by
  have adv : ∀ s : State, TracksVoicesRecordsOnly s (s.advance t) :=
    fun s => ⟨rfl, rfl, rfl, rfl, rfl, rfl, rfl⟩
  rcases tickTrack_cases sc s t with ⟨_, h⟩ | ⟨_, ⟨_, h⟩ | ⟨_, h⟩⟩ <;> rw [h]
  · exact .refl s
  · exact (adv s).trans (gateTrack_only _ t).weaken
  · exact (gateTrack_only s t).weaken.trans (adv _)

/-- The track a tick is at, after its turn. -/
theorem track_tickTrack_self (sc : BitVec 5) (s : State) (t : TrackId) :
    (s.tickTrack sc t).track t
      = if processedAt sc (s.track t) then advanceTrack (s.track t) else s.track t := by
  rcases tickTrack_cases sc s t with ⟨hp, h⟩ | ⟨hp, ⟨_, h⟩ | ⟨_, h⟩⟩ <;>
    rw [h] <;> simp [hp, State.advance]

/-- Another track keeps its fields. -/
theorem track_tickTrack_other (sc : BitVec 5) (s : State) (t u : TrackId) (hu : u ≠ t) :
    (s.tickTrack sc t).track u = s.track u := by
  rcases tickTrack_cases sc s t with ⟨_, h⟩ | ⟨_, ⟨_, h⟩ | ⟨_, h⟩⟩ <;>
    rw [h] <;> simp [State.advance, State.track_setTrack_other _ _ _ _ hu]

theorem foldl_tickTrack_only (sc : BitVec 5) (l : List TrackId) (s : State) :
    TracksVoicesRecordsOnly s (l.foldl (State.tickTrack sc) s) := by
  induction l generalizing s with
  | nil => exact .refl s
  | cons t l ih => exact (tickTrack_only sc s t).trans (ih _)

/-- A tick keeps everything but tracks, voices, records and `stepCounter`. -/
theorem tick_fields (s : State) :
    s.tick.params = s.params ∧ s.tick.mem = s.mem ∧ s.tick.ramEpoch = s.ramEpoch ∧
      s.tick.tb = s.tb ∧ s.tick.inputs = s.inputs ∧ s.tick.readData = s.readData ∧
      s.tick.tp = { s.tp with stepCounter := nextStepCounter s.tp.stepCounter } := by
  have h := foldl_tickTrack_only s.tp.stepCounter trackIds (s.emit (.tick s.tp.stepCounter))
  refine ⟨h.params, h.mem, h.ramEpoch, h.tb, h.inputs, h.readData, ?_⟩
  simp only [State.tick, h.tp, State.emit_tp]

@[simp] theorem tick_params (s : State) : s.tick.params = s.params := (tick_fields s).1
@[simp] theorem tick_mem (s : State) : s.tick.mem = s.mem := (tick_fields s).2.1
@[simp] theorem tick_ramEpoch (s : State) : s.tick.ramEpoch = s.ramEpoch := (tick_fields s).2.2.1
@[simp] theorem tick_tb (s : State) : s.tick.tb = s.tb := (tick_fields s).2.2.2.1
@[simp] theorem tick_inputs (s : State) : s.tick.inputs = s.inputs := (tick_fields s).2.2.2.2.1
@[simp] theorem tick_tp (s : State) :
    s.tick.tp = { s.tp with stepCounter := nextStepCounter s.tp.stepCounter } :=
  (tick_fields s).2.2.2.2.2.2
@[simp] theorem tick_readData (s : State) : s.tick.readData = s.readData :=
  (tick_fields s).2.2.2.2.2.1

/-- The clock check ticks or does nothing. -/
theorem internalClockCheck_cases (s : State) :
    (internalTickDue s = true ∧ s.internalClockCheck
      = State.tick { s with tb := { s.tb with lastTickUs := s.tb.nowUs } }) ∨
    (internalTickDue s = false ∧ s.internalClockCheck = s) := by
  unfold State.internalClockCheck
  cases h : internalTickDue s <;> simp

/-! ## Rendering -/

/-- One voice's turn writes that voice alone; the sums are outside the state. -/
theorem renderVoice_state (m : State × Mix) (v : VoiceId) :
    (State.renderVoice m v).1 = m.1.setVoice v
      (voiceSample m.1.params.decayFloor (m.1.voice v) (m.1.currentSample v)).1 := by
  unfold State.renderVoice
  simp only []
  split <;> rfl

theorem foldl_renderVoice_only (l : List VoiceId) (m : State × Mix) :
    VoicesAndRecordsOnly m.1 (l.foldl State.renderVoice m).1 ∧
      (l.foldl State.renderVoice m).1.out = m.1.out := by
  induction l generalizing m with
  | nil => exact ⟨⟨rfl, rfl, rfl, rfl, rfl, rfl, rfl, rfl⟩, rfl⟩
  | cons v l ih =>
    obtain ⟨h, ho⟩ := ih (State.renderVoice m v)
    rw [List.foldl_cons]
    refine ⟨⟨h.params.trans ?_, h.tracks.trans ?_, h.mem.trans ?_, h.ramEpoch.trans ?_,
      h.tp.trans ?_, h.tb.trans ?_, h.inputs.trans ?_, h.readData.trans ?_⟩, ho.trans ?_⟩ <;>
      simp [renderVoice_state]

/-- A sample request changes the voices and appends one record. -/
theorem render_only (s : State) :
    VoicesAndRecordsOnly s s.render ∧ ∃ l r, s.render.out = s.out ++ [.out l r] := by
  have hm := foldl_renderVoice_only voiceIds (s, { l := f32zero, r := f32zero })
  unfold State.render
  generalize voiceIds.foldl State.renderVoice (s, { l := f32zero, r := f32zero }) = m at hm ⊢
  obtain ⟨h, ho⟩ := hm
  exact ⟨⟨h.params, h.tracks, h.mem, h.ramEpoch, h.tp, h.tb, h.inputs, h.readData⟩, m.2.l, m.2.r,
    congrArg (· ++ [OutRecord.out m.2.l m.2.r]) ho⟩

/-! ## The bus and the step -/

/-- A read of an unmapped word answers 0, as every read answers its value. -/
@[simp] theorem answerUnmapped_eq (s : State) : s.answerUnmapped = s.answer 0 := rfl

/-- A window read answers a sample, or 0 as an unmapped word. -/
theorem answerWindow_cases (s : State) (v : VoiceId) (i : BitVec 20) :
    (i.toNat < s.params.maxSamples ∧ s.answerWindow v i = s.answer (sampleWord (s.sample v i))) ∨
    (s.params.maxSamples ≤ i.toNat ∧ s.answerWindow v i = s.answer 0) := by
  unfold State.answerWindow
  by_cases h : i.toNat < s.params.maxSamples
  · exact .inl ⟨h, by simp [h]⟩
  · exact .inr ⟨Nat.le_of_not_lt h, by simp [h]⟩

/-- Nothing but the bus read data port changes. -/
structure ReadDataOnly (s s' : State) : Prop where
  params : s'.params = s.params
  tracks : s'.tracks = s.tracks
  voices : s'.voices = s.voices
  mem : s'.mem = s.mem
  ramEpoch : s'.ramEpoch = s.ramEpoch
  tp : s'.tp = s.tp
  tb : s'.tb = s.tb
  inputs : s'.inputs = s.inputs
  out : s'.out = s.out

/-- A bus read drives the read data port and nothing else. -/
theorem answer_eq (s : State) (d : Word) : s.answer d = { s with readData := some d } := rfl

theorem answer_readDataOnly (s : State) (d : Word) : ReadDataOnly s (s.answer d) :=
  ⟨rfl, rfl, rfl, rfl, rfl, rfl, rfl, rfl, rfl⟩

theorem answerWindow_readDataOnly (s : State) (v : VoiceId) (i : BitVec 20) :
    ReadDataOnly s (s.answerWindow v i) := by
  rcases answerWindow_cases s v i with ⟨_, h⟩ | ⟨_, h⟩ <;> rw [h] <;>
    exact answer_readDataOnly s _

/-- A sample-window write stores, or does nothing. -/
theorem storeSample_cases (s : State) (v : VoiceId) (i : BitVec 20) (d : Word) :
    (i.toNat < s.params.maxSamples ∧ (s.voice v).enabled = false ∧
      s.storeSample v i d = s.setSample v i (d.extractLsb' 0 16)) ∨
    (¬(i.toNat < s.params.maxSamples ∧ (s.voice v).enabled = false) ∧ s.storeSample v i d = s) := by
  unfold State.storeSample
  by_cases h : i.toNat < s.params.maxSamples ∧ (s.voice v).enabled = false
  · exact .inl ⟨h.1, h.2, by simp [h]⟩
  · exact .inr ⟨h, by simp only [h, if_false]⟩

/-- Everything a step can do: hold the state, perform an instruction, or perform an event that is no
row. -/
theorem step_cases (s : State) :
    (s.inputs = [] ∧ step s = .next s.idle) ∨
    (∃ x rest i, s.inputs = x :: rest ∧ decode x = .ok i ∧ step s = exec i (s.takeInput rest)) ∨
    (∃ x rest u, s.inputs = x :: rest ∧ decode x = .error u ∧
      step s = execUnlisted u (s.takeInput rest)) := by
  unfold step perform
  cases hs : s.inputs with
  | nil => exact .inl ⟨rfl, rfl⟩
  | cons x rest =>
    refine .inr ?_
    cases hd : decode x with
    | ok i => exact .inl ⟨x, rest, i, rfl, hd, by simp [hd]⟩
    | error u => exact .inr ⟨x, rest, u, rfl, hd, by simp [hd]⟩

end Sys2Proof.Machine
end

