-- ==== Sys2Proof/Laws/PerInstr.lean ====
section
/-! SUPPORT. Laws/PerInstr.lean: statements about every row of the table, one lemma per constructor. -/

namespace Sys2Proof.Laws

open Sys2Proof

/-- The formats of spec/30_encoding.md R70. -/
inductive Format where
  | cmd32
  | xport8
  | busW
  | busR
  | strobe
deriving DecidableEq, Repr

/-- A row's "fixed" bits in spec/opcode_table.json: from bit `lo` on, `len` bits with this value. -/
structure Fixed where
  lo : Nat
  len : Nat
  value : Nat
deriving DecidableEq, Repr

/-- Do the bits of a word have a row's fixed values? -/
def Fixed.holds (f : Fixed) (n : Nat) (w : BitVec n) : Prop :=
  w.extractLsb' f.lo f.len = BitVec.ofNat f.len f.value

/-- Is an event in this format, with these fixed bits in its command word, code or address? -/
def inRow (fmt : Format) (fixed : List Fixed) : Input → Prop
  | .cmd32 d => fmt = .cmd32 ∧ ∀ f ∈ fixed, f.holds 32 d
  | .xport8 c => fmt = .xport8 ∧ ∀ f ∈ fixed, f.holds 8 c
  | .busW wa _ => fmt = .busW ∧ ∀ f ∈ fixed, f.holds 24 wa
  | .busR wa => fmt = .busR ∧ ∀ f ∈ fixed, f.holds 24 wa
  | .usStrobe => fmt = .strobe ∧ fixed = []
  | .sampleReq => fmt = .strobe ∧ fixed = []
  | .reset => False

/-- The format of an instruction's row in spec/opcode_table.json. -/
def rowFormat : Instr → Format
  | .nop => .cmd32
  | .edit _ _ => .cmd32
  | .setMode _ _ => .cmd32
  | .setDiv _ _ => .cmd32
  | .setHold _ _ => .cmd32
  | .setLength _ _ => .cmd32
  | .setPulses _ _ => .cmd32
  | .setRotation _ _ => .cmd32
  | .trigger _ => .cmd32
  | .reserved9 => .cmd32
  | .reservedA => .cmd32
  | .reservedB => .cmd32
  | .reservedC => .cmd32
  | .reservedD => .cmd32
  | .reservedE => .cmd32
  | .reservedF => .cmd32
  | .clock => .xport8
  | .start => .xport8
  | .cont => .xport8
  | .stop => .xport8
  | .xportReserved _ => .xport8
  | .wrCmd _ => .busW
  | .wrXport _ => .busW
  | .wrBpm _ => .busW
  | .wrVctrl _ _ => .busW
  | .wrVlen _ _ => .busW
  | .wrVgain _ _ => .busW
  | .wrVpan _ _ => .busW
  | .wrSampleV0 _ _ => .busW
  | .wrSampleV1 _ _ => .busW
  | .wrSampleV2 _ _ => .busW
  | .wrSampleV3 _ _ => .busW
  | .wrSampleV4 _ _ => .busW
  | .wrSampleV5 _ _ => .busW
  | .wrSampleV6 _ _ => .busW
  | .wrSampleV7 _ _ => .busW
  | .rdBpm => .busR
  | .rdTstatus => .busR
  | .rdNowUs => .busR
  | .rdLastTickUs => .busR
  | .rdConfig => .busR
  | .rdMaxsmp => .busR
  | .rdTrkCfg _ => .busR
  | .rdTrkMask _ => .busR
  | .rdVctrl _ => .busR
  | .rdVlen _ => .busR
  | .rdVgain _ => .busR
  | .rdVpan _ => .busR
  | .rdVpos _ => .busR
  | .rdVdecay _ => .busR
  | .rdSampleV0 _ => .busR
  | .rdSampleV1 _ => .busR
  | .rdSampleV2 _ => .busR
  | .rdSampleV3 _ => .busR
  | .rdSampleV4 _ => .busR
  | .rdSampleV5 _ => .busR
  | .rdSampleV6 _ => .busR
  | .rdSampleV7 _ => .busR
  | .usStrobe => .strobe
  | .sampleReq => .strobe

/-- The fixed bits of an instruction's row in spec/opcode_table.json. -/
def rowFixed : Instr → List Fixed
  | .nop => [⟨28, 4, 0x0⟩]
  | .edit _ _ => [⟨28, 4, 0x1⟩]
  | .setMode _ _ => [⟨28, 4, 0x2⟩]
  | .setDiv _ _ => [⟨28, 4, 0x3⟩]
  | .setHold _ _ => [⟨28, 4, 0x4⟩]
  | .setLength _ _ => [⟨28, 4, 0x5⟩]
  | .setPulses _ _ => [⟨28, 4, 0x6⟩]
  | .setRotation _ _ => [⟨28, 4, 0x7⟩]
  | .trigger _ => [⟨28, 4, 0x8⟩]
  | .reserved9 => [⟨28, 4, 0x9⟩]
  | .reservedA => [⟨28, 4, 0xa⟩]
  | .reservedB => [⟨28, 4, 0xb⟩]
  | .reservedC => [⟨28, 4, 0xc⟩]
  | .reservedD => [⟨28, 4, 0xd⟩]
  | .reservedE => [⟨28, 4, 0xe⟩]
  | .reservedF => [⟨28, 4, 0xf⟩]
  | .clock => [⟨0, 8, 0xf8⟩]
  | .start => [⟨0, 8, 0xfa⟩]
  | .cont => [⟨0, 8, 0xfb⟩]
  | .stop => [⟨0, 8, 0xfc⟩]
  | .xportReserved _ => []
  | .wrCmd _ => [⟨0, 24, 0x0⟩]
  | .wrXport _ => [⟨0, 24, 0x1⟩]
  | .wrBpm _ => [⟨0, 24, 0x2⟩]
  | .wrVctrl _ _ => [⟨0, 3, 0x0⟩, ⟨6, 18, 0x4⟩]
  | .wrVlen _ _ => [⟨0, 3, 0x1⟩, ⟨6, 18, 0x4⟩]
  | .wrVgain _ _ => [⟨0, 3, 0x2⟩, ⟨6, 18, 0x4⟩]
  | .wrVpan _ _ => [⟨0, 3, 0x3⟩, ⟨6, 18, 0x4⟩]
  | .wrSampleV0 _ _ => [⟨20, 4, 0x1⟩]
  | .wrSampleV1 _ _ => [⟨20, 4, 0x2⟩]
  | .wrSampleV2 _ _ => [⟨20, 4, 0x3⟩]
  | .wrSampleV3 _ _ => [⟨20, 4, 0x4⟩]
  | .wrSampleV4 _ _ => [⟨20, 4, 0x5⟩]
  | .wrSampleV5 _ _ => [⟨20, 4, 0x6⟩]
  | .wrSampleV6 _ _ => [⟨20, 4, 0x7⟩]
  | .wrSampleV7 _ _ => [⟨20, 4, 0x8⟩]
  | .rdBpm => [⟨0, 24, 0x2⟩]
  | .rdTstatus => [⟨0, 24, 0x3⟩]
  | .rdNowUs => [⟨0, 24, 0x4⟩]
  | .rdLastTickUs => [⟨0, 24, 0x5⟩]
  | .rdConfig => [⟨0, 24, 0x6⟩]
  | .rdMaxsmp => [⟨0, 24, 0x7⟩]
  | .rdTrkCfg _ => [⟨0, 1, 0x0⟩, ⟨3, 21, 0x2⟩]
  | .rdTrkMask _ => [⟨0, 1, 0x1⟩, ⟨3, 21, 0x2⟩]
  | .rdVctrl _ => [⟨0, 3, 0x0⟩, ⟨6, 18, 0x4⟩]
  | .rdVlen _ => [⟨0, 3, 0x1⟩, ⟨6, 18, 0x4⟩]
  | .rdVgain _ => [⟨0, 3, 0x2⟩, ⟨6, 18, 0x4⟩]
  | .rdVpan _ => [⟨0, 3, 0x3⟩, ⟨6, 18, 0x4⟩]
  | .rdVpos _ => [⟨0, 3, 0x4⟩, ⟨6, 18, 0x4⟩]
  | .rdVdecay _ => [⟨0, 3, 0x5⟩, ⟨6, 18, 0x4⟩]
  | .rdSampleV0 _ => [⟨20, 4, 0x1⟩]
  | .rdSampleV1 _ => [⟨20, 4, 0x2⟩]
  | .rdSampleV2 _ => [⟨20, 4, 0x3⟩]
  | .rdSampleV3 _ => [⟨20, 4, 0x4⟩]
  | .rdSampleV4 _ => [⟨20, 4, 0x5⟩]
  | .rdSampleV5 _ => [⟨20, 4, 0x6⟩]
  | .rdSampleV6 _ => [⟨20, 4, 0x7⟩]
  | .rdSampleV7 _ => [⟨20, 4, 0x8⟩]
  | .usStrobe => []
  | .sampleReq => []

/-- The encoder answers an event of the instruction's own row: its format, and its fixed bits. -/
def EncodesRow.Statement (i : Instr) : Prop :=
  i.wellFormed = true → inRow (rowFormat i) (rowFixed i) (encode i)

/-- A packed command word has its `op` in the row's fixed bits. -/
theorem fixed_packCmd (op tgt : BitVec 4) (imm : BitVec 16) :
    Fixed.holds ⟨28, 4, op.toNat⟩ 32 (packCmd op tgt imm) := by
  have h := cmdOp_packCmd op tgt imm
  simpa [Fixed.holds, cmdOp] using h

/-- A sample address has its region in the row's fixed bits. -/
theorem fixed_sampleAddr (r : BitVec 4) (i : BitVec 20) :
    Fixed.holds ⟨20, 4, r.toNat⟩ 24 (sampleAddr r i) := by
  have h := regionOf_sampleAddr r i
  simpa [Fixed.holds, regionOf] using h

/-- A voice register's address has its block and its register in the row's fixed bits. -/
theorem fixed_voiceRegAddr (v : VoiceId) (k : BitVec 3) :
    Fixed.holds ⟨0, 3, k.toNat⟩ 24 (voiceRegAddr v k) ∧
      Fixed.holds ⟨6, 18, 4⟩ 24 (voiceRegAddr v k) := by
  unfold Fixed.holds
  revert v k; decide

/-- A track register's address has its block and its register in the row's fixed bits. -/
theorem fixed_trackRegAddr (t : TrackId) (mask : Bool) :
    Fixed.holds ⟨0, 1, mask.toNat⟩ 24 (trackRegAddr t mask) ∧
      Fixed.holds ⟨3, 21, 2⟩ 24 (trackRegAddr t mask) := by
  unfold Fixed.holds
  revert t mask; decide

/-- One fixed field. -/
theorem forall_one {p : Fixed → Prop} {a : Fixed} (h : p a) : ∀ f ∈ [a], p f := by
  simpa using h

/-- Two fixed fields. -/
theorem forall_two {p : Fixed → Prop} {a b : Fixed} (h : p a ∧ p b) : ∀ f ∈ [a, b], p f := by
  simpa using h

namespace EncodesRow

theorem nop : Statement .nop := fun _ => ⟨rfl, forall_one (fixed_packCmd _ _ _)⟩
theorem edit (t : TrackId) (dec : Bool) : Statement (.edit t dec) := fun _ => ⟨rfl, forall_one (fixed_packCmd _ _ _)⟩
theorem setMode (t : TrackId) (m : BitVec 2) : Statement (.setMode t m) := fun _ => ⟨rfl, forall_one (fixed_packCmd _ _ _)⟩
theorem setDiv (t : TrackId) (k : BitVec 16) : Statement (.setDiv t k) := fun _ => ⟨rfl, forall_one (fixed_packCmd _ _ _)⟩
theorem setHold (t : TrackId) (h : Bool) : Statement (.setHold t h) := fun _ => ⟨rfl, forall_one (fixed_packCmd _ _ _)⟩
theorem setLength (t : TrackId) (k : BitVec 16) : Statement (.setLength t k) := fun _ => ⟨rfl, forall_one (fixed_packCmd _ _ _)⟩
theorem setPulses (t : TrackId) (k : BitVec 16) : Statement (.setPulses t k) := fun _ => ⟨rfl, forall_one (fixed_packCmd _ _ _)⟩
theorem setRotation (t : TrackId) (k : BitVec 16) : Statement (.setRotation t k) := fun _ => ⟨rfl, forall_one (fixed_packCmd _ _ _)⟩
theorem trigger (v : VoiceId) : Statement (.trigger v) := fun _ => ⟨rfl, forall_one (fixed_packCmd _ _ _)⟩
theorem reserved9 : Statement .reserved9 := fun _ => ⟨rfl, forall_one (fixed_packCmd _ _ _)⟩
theorem reservedA : Statement .reservedA := fun _ => ⟨rfl, forall_one (fixed_packCmd _ _ _)⟩
theorem reservedB : Statement .reservedB := fun _ => ⟨rfl, forall_one (fixed_packCmd _ _ _)⟩
theorem reservedC : Statement .reservedC := fun _ => ⟨rfl, forall_one (fixed_packCmd _ _ _)⟩
theorem reservedD : Statement .reservedD := fun _ => ⟨rfl, forall_one (fixed_packCmd _ _ _)⟩
theorem reservedE : Statement .reservedE := fun _ => ⟨rfl, forall_one (fixed_packCmd _ _ _)⟩
theorem reservedF : Statement .reservedF := fun _ => ⟨rfl, forall_one (fixed_packCmd _ _ _)⟩
theorem clock : Statement .clock := fun _ => ⟨rfl, forall_one rfl⟩
theorem start : Statement .start := fun _ => ⟨rfl, forall_one rfl⟩
theorem cont : Statement .cont := fun _ => ⟨rfl, forall_one rfl⟩
theorem stop : Statement .stop := fun _ => ⟨rfl, forall_one rfl⟩
theorem xportReserved (c : BitVec 8) : Statement (.xportReserved c) := fun _ => ⟨rfl, fun _ h => nomatch h⟩
theorem wrCmd (d : Word) : Statement (.wrCmd d) := fun _ => ⟨rfl, forall_one rfl⟩
theorem wrXport (d : Word) : Statement (.wrXport d) := fun _ => ⟨rfl, forall_one rfl⟩
theorem wrBpm (d : Word) : Statement (.wrBpm d) := fun _ => ⟨rfl, forall_one rfl⟩
theorem wrVctrl (v : VoiceId) (d : Word) : Statement (.wrVctrl v d) := fun _ => ⟨rfl, forall_two (fixed_voiceRegAddr _ _)⟩
theorem wrVlen (v : VoiceId) (d : Word) : Statement (.wrVlen v d) := fun _ => ⟨rfl, forall_two (fixed_voiceRegAddr _ _)⟩
theorem wrVgain (v : VoiceId) (d : Word) : Statement (.wrVgain v d) := fun _ => ⟨rfl, forall_two (fixed_voiceRegAddr _ _)⟩
theorem wrVpan (v : VoiceId) (d : Word) : Statement (.wrVpan v d) := fun _ => ⟨rfl, forall_two (fixed_voiceRegAddr _ _)⟩
theorem wrSampleV0 (i : BitVec 20) (d : Word) : Statement (.wrSampleV0 i d) := fun _ => ⟨rfl, forall_one (fixed_sampleAddr _ _)⟩
theorem wrSampleV1 (i : BitVec 20) (d : Word) : Statement (.wrSampleV1 i d) := fun _ => ⟨rfl, forall_one (fixed_sampleAddr _ _)⟩
theorem wrSampleV2 (i : BitVec 20) (d : Word) : Statement (.wrSampleV2 i d) := fun _ => ⟨rfl, forall_one (fixed_sampleAddr _ _)⟩
theorem wrSampleV3 (i : BitVec 20) (d : Word) : Statement (.wrSampleV3 i d) := fun _ => ⟨rfl, forall_one (fixed_sampleAddr _ _)⟩
theorem wrSampleV4 (i : BitVec 20) (d : Word) : Statement (.wrSampleV4 i d) := fun _ => ⟨rfl, forall_one (fixed_sampleAddr _ _)⟩
theorem wrSampleV5 (i : BitVec 20) (d : Word) : Statement (.wrSampleV5 i d) := fun _ => ⟨rfl, forall_one (fixed_sampleAddr _ _)⟩
theorem wrSampleV6 (i : BitVec 20) (d : Word) : Statement (.wrSampleV6 i d) := fun _ => ⟨rfl, forall_one (fixed_sampleAddr _ _)⟩
theorem wrSampleV7 (i : BitVec 20) (d : Word) : Statement (.wrSampleV7 i d) := fun _ => ⟨rfl, forall_one (fixed_sampleAddr _ _)⟩
theorem rdBpm : Statement .rdBpm := fun _ => ⟨rfl, forall_one rfl⟩
theorem rdTstatus : Statement .rdTstatus := fun _ => ⟨rfl, forall_one rfl⟩
theorem rdNowUs : Statement .rdNowUs := fun _ => ⟨rfl, forall_one rfl⟩
theorem rdLastTickUs : Statement .rdLastTickUs := fun _ => ⟨rfl, forall_one rfl⟩
theorem rdConfig : Statement .rdConfig := fun _ => ⟨rfl, forall_one rfl⟩
theorem rdMaxsmp : Statement .rdMaxsmp := fun _ => ⟨rfl, forall_one rfl⟩
theorem rdTrkCfg (t : TrackId) : Statement (.rdTrkCfg t) := fun _ => ⟨rfl, forall_two (fixed_trackRegAddr _ _)⟩
theorem rdTrkMask (t : TrackId) : Statement (.rdTrkMask t) := fun _ => ⟨rfl, forall_two (fixed_trackRegAddr _ _)⟩
theorem rdVctrl (v : VoiceId) : Statement (.rdVctrl v) := fun _ => ⟨rfl, forall_two (fixed_voiceRegAddr _ _)⟩
theorem rdVlen (v : VoiceId) : Statement (.rdVlen v) := fun _ => ⟨rfl, forall_two (fixed_voiceRegAddr _ _)⟩
theorem rdVgain (v : VoiceId) : Statement (.rdVgain v) := fun _ => ⟨rfl, forall_two (fixed_voiceRegAddr _ _)⟩
theorem rdVpan (v : VoiceId) : Statement (.rdVpan v) := fun _ => ⟨rfl, forall_two (fixed_voiceRegAddr _ _)⟩
theorem rdVpos (v : VoiceId) : Statement (.rdVpos v) := fun _ => ⟨rfl, forall_two (fixed_voiceRegAddr _ _)⟩
theorem rdVdecay (v : VoiceId) : Statement (.rdVdecay v) := fun _ => ⟨rfl, forall_two (fixed_voiceRegAddr _ _)⟩
theorem rdSampleV0 (i : BitVec 20) : Statement (.rdSampleV0 i) := fun _ => ⟨rfl, forall_one (fixed_sampleAddr _ _)⟩
theorem rdSampleV1 (i : BitVec 20) : Statement (.rdSampleV1 i) := fun _ => ⟨rfl, forall_one (fixed_sampleAddr _ _)⟩
theorem rdSampleV2 (i : BitVec 20) : Statement (.rdSampleV2 i) := fun _ => ⟨rfl, forall_one (fixed_sampleAddr _ _)⟩
theorem rdSampleV3 (i : BitVec 20) : Statement (.rdSampleV3 i) := fun _ => ⟨rfl, forall_one (fixed_sampleAddr _ _)⟩
theorem rdSampleV4 (i : BitVec 20) : Statement (.rdSampleV4 i) := fun _ => ⟨rfl, forall_one (fixed_sampleAddr _ _)⟩
theorem rdSampleV5 (i : BitVec 20) : Statement (.rdSampleV5 i) := fun _ => ⟨rfl, forall_one (fixed_sampleAddr _ _)⟩
theorem rdSampleV6 (i : BitVec 20) : Statement (.rdSampleV6 i) := fun _ => ⟨rfl, forall_one (fixed_sampleAddr _ _)⟩
theorem rdSampleV7 (i : BitVec 20) : Statement (.rdSampleV7 i) := fun _ => ⟨rfl, forall_one (fixed_sampleAddr _ _)⟩
theorem usStrobe : Statement .usStrobe := fun _ => ⟨rfl, rfl⟩
theorem sampleReq : Statement .sampleReq := fun _ => ⟨rfl, rfl⟩

end EncodesRow

end Sys2Proof.Laws
end

