-- ==== Sys2Proof/Tests/Slice0.lean ====
section
/-! SUPPORT. Tests/Slice0.lean: tests of the model's own work: what WellFormed refuses, words written out
from the spec's encodings, single steps with the values of the spec's examples, and for every statement
with hypotheses a state and operands that meet them. "V1" to "V10" and "P1" to "P4" are the parts of
spec/95_test_vectors.md. -/

namespace Sys2Proof.Tests

open Sys2Proof.Machine

/-! ## WellFormed: an assigned code is no reserved one (30_encoding.md R78, R79) -/

theorem test_wellFormed_refuses_clock_code : (Instr.xportReserved 0xF8).wellFormed = false := by decide
theorem test_wellFormed_refuses_start_code : (Instr.xportReserved 0xFA).wellFormed = false := by decide
theorem test_wellFormed_refuses_continue_code : (Instr.xportReserved 0xFB).wellFormed = false := by decide
theorem test_wellFormed_refuses_stop_code : (Instr.xportReserved 0xFC).wellFormed = false := by decide
theorem test_wellFormed_keeps_reserved_codes :
    (Instr.xportReserved 0xF9).wellFormed = true ∧ (Instr.xportReserved 0x90).wellFormed = true := by decide

/-! ## Decoding: every constructor, from a word written out -/

/-- The command words of V2 and of the examples of 41_sequencer.md. -/
theorem test_decode_cmd32 :
    decode (.cmd32 0x00000000) = .ok .nop ∧
    decode (.cmd32 0x13000001) = .ok (.edit 3 true) ∧
    decode (.cmd32 0x10000000) = .ok (.edit 0 false) ∧
    decode (.cmd32 0x21000001) = .ok (.setMode 1 1) ∧
    decode (.cmd32 0x30000002) = .ok (.setDiv 0 2) ∧
    decode (.cmd32 0x42000000) = .ok (.setHold 2 false) ∧
    decode (.cmd32 0x43000001) = .ok (.setHold 3 true) ∧
    decode (.cmd32 0x53000010) = .ok (.setLength 3 16) ∧
    decode (.cmd32 0x61000005) = .ok (.setPulses 1 5) ∧
    decode (.cmd32 0x7000000F) = .ok (.setRotation 0 15) ∧
    decode (.cmd32 0x87000000) = .ok (.trigger 7) := by decide

/-- Words of V2 with ignored bits set. -/
theorem test_decode_ignored_bits :
    decode (.cmd32 0x1F00FFFE) = .ok (.edit 3 false) ∧
    decode (.cmd32 0x8F000000) = .ok (.trigger 7) ∧
    decode (.cmd32 0x2300FFFF) = .ok (.setMode 3 3) ∧
    decode (.cmd32 0x92FFFFFF) = .ok .reserved9 := by decide

/-- The reserved operations, `op << 28` (30_encoding.md R73). -/
theorem test_decode_reserved_ops :
    decode (.cmd32 0x90000000) = .ok .reserved9 ∧ decode (.cmd32 0xA0000000) = .ok .reservedA ∧
    decode (.cmd32 0xB0000000) = .ok .reservedB ∧ decode (.cmd32 0xC0000000) = .ok .reservedC ∧
    decode (.cmd32 0xD0000000) = .ok .reservedD ∧ decode (.cmd32 0xE0000000) = .ok .reservedE ∧
    decode (.cmd32 0xF0000000) = .ok .reservedF := by decide

/-- 30_encoding.md R78, R79. -/
theorem test_decode_xport8 :
    decode (.xport8 0xF8) = .ok .clock ∧ decode (.xport8 0xFA) = .ok .start ∧
    decode (.xport8 0xFB) = .ok .cont ∧ decode (.xport8 0xFC) = .ok .stop ∧
    decode (.xport8 0x90) = .ok (.xportReserved 0x90) := by decide

/-- Addresses of 20_memory.md R60: 0x00100 + 8v + k. -/
theorem test_decode_register_writes :
    decode (.busW 0x000000 0x81000000) = .ok (.wrCmd 0x81000000) ∧
    decode (.busW 0x000001 0xFA) = .ok (.wrXport 0xFA) ∧
    decode (.busW 0x000002 90) = .ok (.wrBpm 90) ∧
    decode (.busW 0x000100 1) = .ok (.wrVctrl 0 1) ∧
    decode (.busW 0x000109 100) = .ok (.wrVlen 1 100) ∧
    decode (.busW 0x000102 0x3F000000) = .ok (.wrVgain 0 0x3F000000) ∧
    decode (.busW 0x00013B 4) = .ok (.wrVpan 7 4) := by decide

/-- 20_memory.md R59, R64: region v + 1 is the window of voice v. -/
theorem test_decode_sample_writes :
    decode (.busW 0x100001 0x1000) = .ok (.wrSampleV0 1 0x1000) ∧
    decode (.busW 0x200000 7) = .ok (.wrSampleV1 0 7) ∧
    decode (.busW 0x3FFFFF 7) = .ok (.wrSampleV2 0xFFFFF 7) ∧
    decode (.busW 0x400002 7) = .ok (.wrSampleV3 2 7) ∧
    decode (.busW 0x500003 7) = .ok (.wrSampleV4 3 7) ∧
    decode (.busW 0x600004 7) = .ok (.wrSampleV5 4 7) ∧
    decode (.busW 0x700005 7) = .ok (.wrSampleV6 5 7) ∧
    decode (.busW 0x80FFFF 7) = .ok (.wrSampleV7 0xFFFF 7) := by decide

/-- Addresses of 20_memory.md R60: 0x00010 + 2t + k and 0x00100 + 8v + k. -/
theorem test_decode_register_reads :
    decode (.busR 0x000002) = .ok .rdBpm ∧ decode (.busR 0x000003) = .ok .rdTstatus ∧
    decode (.busR 0x000004) = .ok .rdNowUs ∧ decode (.busR 0x000005) = .ok .rdLastTickUs ∧
    decode (.busR 0x000006) = .ok .rdConfig ∧ decode (.busR 0x000007) = .ok .rdMaxsmp ∧
    decode (.busR 0x000014) = .ok (.rdTrkCfg 2) ∧ decode (.busR 0x000017) = .ok (.rdTrkMask 3) ∧
    decode (.busR 0x000138) = .ok (.rdVctrl 7) ∧ decode (.busR 0x000101) = .ok (.rdVlen 0) ∧
    decode (.busR 0x00010A) = .ok (.rdVgain 1) ∧ decode (.busR 0x000113) = .ok (.rdVpan 2) ∧
    decode (.busR 0x00011C) = .ok (.rdVpos 3) ∧ decode (.busR 0x00010D) = .ok (.rdVdecay 1) := by decide

/-- 20_memory.md R59, R64. -/
theorem test_decode_sample_reads :
    decode (.busR 0x100000) = .ok (.rdSampleV0 0) ∧ decode (.busR 0x200001) = .ok (.rdSampleV1 1) ∧
    decode (.busR 0x300002) = .ok (.rdSampleV2 2) ∧ decode (.busR 0x400003) = .ok (.rdSampleV3 3) ∧
    decode (.busR 0x500004) = .ok (.rdSampleV4 4) ∧ decode (.busR 0x600005) = .ok (.rdSampleV5 5) ∧
    decode (.busR 0x700006) = .ok (.rdSampleV6 6) ∧
    decode (.busR 0x8FFFFF) = .ok (.rdSampleV7 0xFFFFF) := by decide

/-- The strobes (30_encoding.md R81). -/
theorem test_decode_strobes :
    decode .usStrobe = .ok .usStrobe ∧ decode .sampleReq = .ok .sampleReq := by decide

/-- Words of 20_memory.md R60 that are read-only, write-only or unmapped. -/
theorem test_decode_unlisted :
    decode (.busW 0x000003 5) = .error (.ignoredWrite 0x000003) ∧
    decode (.busW 0x000104 5) = .error (.ignoredWrite 0x000104) ∧
    decode (.busW 0x900000 5) = .error (.ignoredWrite 0x900000) ∧
    decode (.busR 0x000000) = .error (.writeOnlyRead 0x000000) ∧
    decode (.busR 0x000106) = .error (.unmappedRead 0x000106) ∧
    decode (.busR 0x000018) = .error (.unmappedRead 0x000018) ∧
    decode (.busR 0xF00000) = .error (.unmappedRead 0xF00000) := by decide

/-! ## A small machine -/

/-- The default machine with the floor of spec/95_test_vectors.md, 2^-10. -/
def testParams : Params :=
  { defaultParams with decayFloor := 0x3A800000 }

/-- That machine after reset. -/
def testState : State := resetState testParams 0 []

/-- Voice 1 enabled with the four samples 16384, -16384, 8192, 0 and gain 0.5 (P3). -/
def voiceState : State :=
  { testState.setVoice 1 { voiceReset with enabled := true, length := 4, gain := 0x3F000000 } with
    mem := [(0x800000, 0x00), (0x800001, 0x40), (0x800004, 0x00), (0x800005, 0xC0),
            (0x800008, 0x00), (0x800009, 0x20), (0x80000C, 0x00), (0x80000D, 0x00)] }

/-- That machine with voice 1 at a position of its note. -/
def playingState (pos : BitVec 20) : State :=
  voiceState.setVoice 1 { voiceState.voice 1 with isPlaying := true, playbackPosition := pos }

/-- That machine with voice 1 idle and a tail. -/
def tailState (d : F32) : State :=
  voiceState.setVoice 1 { voiceState.voice 1 with decayActive := true, decayAmplitude := d }

/-- Track 0 changed. -/
def withTrack (f : Track → Track) : State := testState.setTrack 0 (f trackReset)

/-- Transport changed. -/
def withTransport (f : Transport → Transport) : State := { testState with tp := f testState.tp }

/-- A field of the state an instruction leaves. -/
def afterExec {α : Type} (i : Instr) (s : State) (f : State → α) : Option α :=
  match exec i s with
  | .next t => some (f t)
  | .fault _ => none
  | .refused _ => none

/-- What a read drives: the records on the list, and the read data. -/
def answered (i : Instr) (s : State) : Option (List OutRecord × Option Word) :=
  afterExec i s fun t => (t.out, t.readData)

/-! ## Rhythm (V1, W1) -/

theorem test_generate_vectors :
    generate .formula 16 4 0 = 0x1111 ∧ generate .formula 8 3 7 = 0x00A4 ∧
    generate .formula 8 5 3 = 0x00AD ∧ generate .formula 12 5 11 = 0x0A94 ∧
    generate .formula 16 9 2 = 0xAD56 ∧ generate .formula 16 15 15 = 0xFFFE ∧
    generate .formula 1 0 0 = 0x0000 := by decide

/-! ## Arithmetic (43_voice.md R158, R162; values of IEEE 754) -/

theorem test_normalize :
    Machine.normalize 0x1000 = 0x3E000000 ∧ Machine.normalize 0x8000 = 0xBF800000 ∧
    Machine.normalize 0x7FFF = 0x3F7FFE00 := by decide +kernel
theorem test_f32mul : f32mul 0x3F000000 0x3F3504F3 = 0x3EB504F3 := by decide +kernel
/-- 1 + 2^-24 is a tie and goes to the even 1; a subnormal sum keeps its bits. -/
theorem test_f32add : f32add 0x3F800000 0x33800000 = 0x3F800000 ∧ f32add 1 2 = 3 := by decide

/-! ## Track commands: the examples of 41_sequencer.md R110 to R118 and V3 -/

theorem test_nop : exec .nop testState = .next testState := rfl
/-- R111's example. -/
theorem test_edit_density :
    afterExec (.edit 0 false) (withTrack fun k => { k with pulseCount := 3, rhythmMask := 0x0841 })
      (fun s => ((s.track 0).pulseCount, (s.track 0).rhythmMask)) = some (4, 0x1111) := by decide
/-- Rotation 15 + 1 stays 15 at length 16. -/
theorem test_edit_saturates :
    afterExec (.edit 0 false) (withTrack fun k => { k with editMode := .offset, rotation := 15 })
      (fun s => (s.track 0).rotation) = some 15 := by decide
/-- V3: `mode t2, length` gives TRK2_CFG 0x00001042. -/
theorem test_setMode :
    afterExec (.setMode 2 2) testState (fun s => trkCfgWord (s.track 2)) = some 0x00001042 := by decide
theorem test_setMode_reserved :
    afterExec (.setMode 2 3) testState (fun s => trkCfgWord (s.track 2)) = some 0x00001040 := by decide
theorem test_setDiv : afterExec (.setDiv 1 2) testState
    (fun s => (s.track 1).clockDivisionIndex) = some 2 := by decide
theorem test_setDiv_clamps : afterExec (.setDiv 2 0xFFFF) testState
    (fun s => (s.track 2).clockDivisionIndex) = some 4 := by decide
theorem test_setHold : afterExec (.setHold 3 true) testState
    (fun s => ((s.track 3).manualHold, (s.track 2).manualHold)) = some (true, false) := by decide
/-- R110's example: length 4 makes 7, 7, 7 into 3, 3, 3 with mask 0x000E. -/
theorem test_setLength :
    afterExec (.setLength 0 4)
      (withTrack fun k => { k with loopLength := 8, pulseCount := 7, rotation := 7, activeStep := 7 })
      (fun s => (trkCfgWord (s.track 0), (s.track 0).rhythmMask)) = some (0x03330440, 0x000E) := by decide
theorem test_setLength_zero : afterExec (.setLength 0 0) testState
    (fun s => (s.track 0).loopLength) = some 1 := by decide
theorem test_setPulses : afterExec (.setPulses 0 2) (withTrack fun k => { k with loopLength := 8 })
    (fun s => (s.track 0).rhythmMask) = some 0x0011 := by decide
theorem test_setRotation :
    afterExec (.setRotation 0 1) (withTrack fun k => { k with loopLength := 8, pulseCount := 2 })
      (fun s => (s.track 0).rhythmMask) = some 0x0022 := by decide
theorem test_setRotation_clamps :
    afterExec (.setRotation 0 9) (withTrack fun k => { k with loopLength := 8 })
      (fun s => (s.track 0).rotation) = some 7 := by decide
theorem test_reserved_ops :
    exec .reserved9 testState = .next testState ∧ exec .reservedA testState = .next testState ∧
    exec .reservedB testState = .next testState ∧ exec .reservedC testState = .next testState ∧
    exec .reservedD testState = .next testState ∧ exec .reservedE testState = .next testState ∧
    exec .reservedF testState = .next testState := ⟨rfl, rfl, rfl, rfl, rfl, rfl, rfl⟩

/-! ## Voices: the examples of 43_voice.md R150 to R157, P3 -/

/-- W9: the retrigger captures the next sample, 8192 at gain 0.5. -/
theorem test_trigger_retrigger :
    afterExec (.trigger 1) (playingState 2)
      (fun s => ((s.voice 1).decayAmplitude, (s.voice 1).playbackPosition, s.out))
      = some (0x3E000000, 0, [.trig 1 .retrigger]) := by decide +kernel
theorem test_trigger_disabled :
    afterExec (.trigger 5) testState (fun s => ((s.voice 5).isPlaying, s.out))
      = some (false, [.trig 5 .ignored]) := by decide
/-- R157's example: acc 16384 / 32768 * 1.0 at pan 9. -/
theorem test_sampleReq :
    afterExec .sampleReq
      ((playingState 0).setVoice 1 { (playingState 0).voice 1 with gain := 0x3F800000 })
      (fun s => (s.out, (s.voice 1).playbackPosition))
      = some ([.out 0x3EB504F3 0x3EB504F3], 1) := by decide +kernel
/-- A tail without a note decays unheard: 0.125 * 0.99 (P3, 43_voice.md R154). -/
theorem test_sampleReq_silent_tail :
    afterExec .sampleReq (tailState 0x3E000000) (fun s => (s.out, (s.voice 1).decayAmplitude))
      = some ([.out 0 0], 0x3DFD70A4) := by decide +kernel

/-! ## Transport: V5, 42_transport.md R131 to R137 -/

theorem test_clock :
    afterExec .clock (withTransport fun p => { p with mode := .external, running := true, pulseCounter := 2 })
      (fun s => (s.tp.pulseCounter, s.tp.stepCounter, s.out)) = some (3, 2, [.tick 1]) := by decide
theorem test_clock_stopped : afterExec .clock testState
    (fun s => (s.tp.pulseCounter, s.out)) = some (0, []) := by decide
theorem test_start :
    afterExec .start testState (fun s => (tstatusWord s.tp, (s.track 3).activeStep, s.out))
      = some (0x00000203, 1, [.tick 1]) := by decide
theorem test_stop :
    afterExec .stop (withTransport fun p => { p with mode := .external, running := true, pulseCounter := 7 })
      (fun s => tstatusWord s.tp) = some 0x00000101 := by decide
theorem test_cont : exec .cont testState = .next testState := rfl
theorem test_xportReserved : exec (.xportReserved 0x90) testState = .next testState := rfl
/-- R135's example: strobe 125000 makes the first internal tick. -/
theorem test_usStrobe :
    afterExec .usStrobe { testState with tb := { nowUs := 124999, lastTickUs := 0 } }
      (fun s => (s.tb.nowUs, s.tb.lastTickUs, s.out)) = some (125000, 125000, [.tick 1]) := by decide
theorem test_usStrobe_early :
    afterExec .usStrobe { testState with tb := { nowUs := 124998, lastTickUs := 0 } }
      (fun s => (s.tb.nowUs, s.tb.lastTickUs, s.out)) = some (124999, 0, []) := by decide

/-! ## Bus writes: the examples of 44_host_bus.md R172 to R177 -/

theorem test_wrCmd : afterExec (.wrCmd 0x81000000) voiceState
    (fun s => s.out) = some [.trig 1 .start] := by decide
theorem test_wrXport : afterExec (.wrXport 0x000001FA) testState
    (fun s => s.out) = some [.tick 1] := by decide
theorem test_wrBpm : afterExec (.wrBpm 90) testState (fun s => s.tp.bpm) = some 90 := by decide
theorem test_wrBpm_clamps : afterExec (.wrBpm 0x00010000) testState
    (fun s => s.tp.bpm) = some 65535 := by decide
theorem test_wrVctrl : afterExec (.wrVctrl 0 1) (testState.setVoice 0 { voiceReset with length := 8 })
    (fun s => (s.voice 0).enabled) = some true := by decide
theorem test_wrVctrl_empty : afterExec (.wrVctrl 0 1) testState
    (fun s => (s.voice 0).enabled) = some false := by decide
theorem test_wrVlen : afterExec (.wrVlen 1 100) testState
    (fun s => (s.voice 1).length) = some 100 := by decide
theorem test_wrVlen_locked : afterExec (.wrVlen 1 100) voiceState
    (fun s => (s.voice 1).length) = some 4 := by decide
theorem test_wrVgain : afterExec (.wrVgain 0 0x3F000000) testState
    (fun s => (s.voice 0).gain) = some 0x3F000000 := by decide
/-- R175's corners: NaN, minus infinity, plus infinity. -/
theorem test_wrVgain_clamps :
    clampGain 0x7FC00000 = 0 ∧ clampGain 0xFF800000 = 0 ∧ clampGain 0x80000000 = 0 ∧
    clampGain 0x7F800000 = 0x3F800000 ∧ clampGain 0x00000001 = 0x00000001 := by decide
theorem test_wrVpan : afterExec (.wrVpan 1 0) testState
    (fun s => (s.voice 1).panIndex) = some 0 := by decide
theorem test_wrVpan_clamps : afterExec (.wrVpan 1 99) testState
    (fun s => (s.voice 1).panIndex) = some 18 := by decide
/-- R176: `wr 0x100001, 0x1000` stores 4096 at SampleRAM[0][1], the byte address 0x400004. -/
theorem test_wrSampleV0 : afterExec (.wrSampleV0 1 0x1000) testState
    (fun s => (s.sample 0 1, s.mem)) = some (0x1000, [(0x400004, 0x00), (0x400005, 0x10)]) := by decide
theorem test_wrSampleV1_locked : afterExec (.wrSampleV1 2 7) voiceState
    (fun s => s.sample 1 2) = some 0x2000 := by decide
theorem test_wrSample_windows :
    afterExec (.wrSampleV1 0 0x8001) testState (fun s => s.sample 1 0) = some 0x8001 ∧
    afterExec (.wrSampleV2 0 0x8001) testState (fun s => s.sample 2 0) = some 0x8001 ∧
    afterExec (.wrSampleV3 0 0x8001) testState (fun s => s.sample 3 0) = some 0x8001 ∧
    afterExec (.wrSampleV4 0 0x8001) testState (fun s => s.sample 4 0) = some 0x8001 ∧
    afterExec (.wrSampleV5 0 0x8001) testState (fun s => s.sample 5 0) = some 0x8001 ∧
    afterExec (.wrSampleV6 0 0x8001) testState (fun s => s.sample 6 0) = some 0x8001 ∧
    afterExec (.wrSampleV7 0 0x8001) testState (fun s => s.sample 7 0) = some 0x8001 := by decide

/-! ## Bus reads: the values after reset of 20_memory.md R61, R62, 10_state.md R52, and P3 -/

theorem test_reads_after_reset :
    answered .rdBpm testState = some ([], some 120) ∧
    answered .rdTstatus testState = some ([], some 0x00000100) ∧
    answered .rdNowUs testState = some ([], some 0) ∧
    answered .rdLastTickUs testState = some ([], some 0) ∧
    answered .rdConfig testState = some ([], some 0x00001084) ∧
    answered .rdMaxsmp testState = some ([], some 65536) ∧
    answered (.rdTrkCfg 0) testState = some ([], some 0x00001040) ∧
    answered (.rdTrkMask 0) testState = some ([], some 0) := by decide
theorem test_voice_reads :
    answered (.rdVctrl 1) (playingState 2) = some ([], some 3) ∧
    answered (.rdVlen 1) (playingState 2) = some ([], some 4) ∧
    answered (.rdVgain 1) (playingState 2) = some ([], some 0x3F000000) ∧
    answered (.rdVpan 1) (playingState 2) = some ([], some 9) ∧
    answered (.rdVpos 1) (playingState 2) = some ([], some 2) ∧
    answered (.rdVdecay 1) (tailState 0x3E000000) = some ([], some 0x3E000000) := by decide
/-- The window sign-extends. -/
theorem test_sample_reads :
    answered (.rdSampleV1 1) voiceState = some ([], some 0xFFFFC000) ∧
    answered (.rdSampleV1 2) voiceState = some ([], some 0x00002000) := by decide
/-- At an index that does not exist a window reads 0 (20_memory.md R65). -/
theorem test_sample_reads_past_the_end :
    answered (.rdSampleV0 0x10000) voiceState = some ([], some 0) ∧
    answered (.rdSampleV2 0x10000) voiceState = some ([], some 0) ∧
    answered (.rdSampleV3 0x10000) voiceState = some ([], some 0) ∧
    answered (.rdSampleV4 0x10000) voiceState = some ([], some 0) ∧
    answered (.rdSampleV5 0x10000) voiceState = some ([], some 0) ∧
    answered (.rdSampleV6 0x10000) voiceState = some ([], some 0) ∧
    answered (.rdSampleV7 0x10000) voiceState = some ([], some 0) := by decide

/-- An unmapped word and CMD read as 0, with no record but the read data (20_memory.md R60, R65). -/
theorem test_unmapped_reads :
    perform (.busR 0x000008) testState = .next (testState.answer 0) ∧
    perform (.busR 0x000000) testState = .next (testState.answer 0) ∧
    (testState.answer 0).out = [] ∧ (testState.answer 0).readData = some 0 :=
  ⟨rfl, rfl, rfl, rfl⟩

/-! ## Witnesses: for each statement with hypotheses, what meets them, at the ends of their ranges -/

theorem witness_DecodeEncodeRoundTrip : (Instr.xportReserved 0xF9).wellFormed = true := by decide

theorem witness_BusAccessesHaveOneMeaning :
    decode (.busW 0x8FFFFF 5) = .ok (.wrSampleV7 0xFFFFF 5) ∧
    decode (.busR 0x00013D) = .ok (.rdVdecay 7) := by decide

theorem witness_StepRunsDecodedInstruction :
    (testState.present [.xport8 0xF9, .reset]).inputs = [.xport8 0xF9, .reset] ∧
    decode (.xport8 0xF9) = .ok (.xportReserved 0xF9) ∧
    (Instr.xportReserved 0xF9).wellFormed = true ∧ State.reset.inputs = [] := by decide

theorem witness_StepKeepsParametersAndTakesOneEvent :
    (∃ t, step (testState.present [.reset, .usStrobe]) = .next t) ∧ ∃ t, step State.reset = .next t :=
  ⟨⟨_, rfl⟩, ⟨_, rfl⟩⟩

/-- The first word after BPM, a word of a voice block that only reads, and the first of region 9 are not
writable; XPORT, the word after MAXSMP, the last of a voice block and the last of all are not readable. -/
theorem witness_UnnamedWordsReadZeroAndIgnoreWrites :
    (¬ Writable 0x000003 ∧ ¬ Writable 0x000104 ∧ ¬ Writable 0x900000) ∧
    (¬ Readable 0x000001 ∧ ¬ Readable 0x000008 ∧ ¬ Readable 0x000107 ∧ ¬ Readable 0xFFFFFF) := by
  refine ⟨⟨?_, ?_, ?_⟩, ?_, ?_, ?_, ?_⟩ <;> simp [Writable, Readable] <;> omega

theorem witness_GenerateWithoutPulsesIsEmpty : (1 ≤ 1 ∧ 1 ≤ 16 ∧ 0 < 1) ∧ (1 ≤ 16 ∧ 16 ≤ 16 ∧ 15 < 16) := by
  decide

/-- The table that lists the default patterns is a base of its own. -/
def testBase : EuclidBase :=
  .table ((List.range (maxSteps + 1)).map fun s => (List.range s).map fun p => euclidFormula s p)

theorem witness_GeneratePopcount :
    legalBase testBase = true ∧ (1 ≤ 16 ∧ 16 ≤ 16 ∧ 15 < 16 ∧ 15 < 16) ∧ 16 ≤ 20 := by decide +kernel

theorem witness_DefaultPatternIsMaximallyEven :
    (2 ≤ 16 ∧ 1 ≤ 1 ∧ 1 < 2 ∧ 1 < 2 ∧ 2 ∈ maskGaps (generate .formula 2 1 1) 2) ∧
    (16 ≤ 16 ∧ 1 ≤ 15 ∧ 15 < 16 ∧ 15 < 16 ∧ 2 ∈ maskGaps (generate .formula 16 15 15) 16) := by decide

theorem witness_RotationMovesEveryStep :
    (1 ≤ 16 ∧ 16 ≤ 16 ∧ 15 < 16 ∧ (0x8000#16).toNat < 2 ^ 16 ∧ 15 < 16 ∧ 16 ≤ 17) ∧
    (1 ≤ 1 ∧ 1 ≤ 16 ∧ 0 < 1 ∧ (0x0001#16).toNat < 2 ^ 1) ∧
    legalBase testBase = true := by decide +kernel

theorem witness_NoOperationsChangeNothing :
    cmdOp 0x0FFFFFFF = 0x0 ∧ 0x9 ≤ (cmdOp 0x90000000).toNat ∧ 0x9 ≤ (cmdOp 0xFFFFFFFF).toNat ∧
    ((0xFB : BitVec 8) ≠ 0xF8 ∧ (0xFB : BitVec 8) ≠ 0xFA ∧ (0xFB : BitVec 8) ≠ 0xFC) := by decide

/-- Loop lengths 1 and 16, and each edit mode. -/
theorem witness_EditMovesSelectedField :
    ((withTrack fun k => { k with loopLength := 1 }).track 0).loopLength.toNat = 1 ∧
    (testState.track 0).loopLength.toNat = 16 ∧ (testState.track 0).editMode = .density ∧
    ((withTrack fun k => { k with editMode := .offset }).track 0).editMode = .offset ∧
    ((withTrack fun k => { k with editMode := .length }).track 0).editMode = .length := by decide

theorem witness_SetModeSelectsMode : (3 : BitVec 2) = 3 ∧ (2 : BitVec 2) ≠ 3 := by decide

theorem witness_SetPulsesAndSetRotationClamp :
    1 ≤ (testState.track 0).loopLength.toNat ∧ (testState.track 0).loopLength.toNat ≤ 16 ∧
    1 ≤ ((withTrack fun k => { k with loopLength := 1 }).track 0).loopLength.toNat := by decide

/-- A track at the upper end of every range. -/
def fullTrack : Track :=
  { trackReset with pulseCount := 15, rotation := 15, activeStep := 15, rhythmMask := 0xFFFE }

theorem fullTrack_inRange : TrackInRange fullTrack := by constructor <;> decide
theorem trackReset_inRange : TrackInRange trackReset := by constructor <;> decide

/-- A machine whose track 0 is `fullTrack`. -/
def fullState : State := withTrack fun _ => fullTrack

theorem fullState_tracksInRange : ∀ t, TrackInRange (fullState.track t)
  | 0 => fullTrack_inRange
  | 1 => trackReset_inRange
  | 2 => trackReset_inRange
  | 3 => trackReset_inRange

theorem witness_TickAdvancesProcessedTracks : ∀ t, TrackInRange (fullState.track t) :=
  fullState_tracksInRange

/-- Track 0 wraps to step 0 without a pulse; held, it sounds. -/
theorem witness_TickGatesSoundingTracks :
    (∀ t, TrackInRange (fullState.track t)) ∧ fullState.params.voiceOfTrack = #v[0, 1, 2, 3] ∧
    sounds .advanceThenTest 16 { fullState.track 0 with manualHold := true } = true :=
  ⟨fullState_tracksInRange, rfl, by decide⟩

/-- Stopped, at the last pulse but one of a tick, and at the pulse that wraps. -/
theorem witness_ClockCountsPulses :
    testState.tp.running = false ∧
    (let s := withTransport fun p => { p with running := true, pulseCounter := 22 }
     s.tp.running = true ∧ (s.tp.pulseCounter.toNat + 1) % 24 % 3 ≠ 0) ∧
    (let s := withTransport fun p => { p with running := true, pulseCounter := 23 }
     s.tp.running = true ∧ (s.tp.pulseCounter.toNat + 1) % 24 % 3 = 0) := by decide

theorem witness_StartRunsStartSequence : ∀ t, TrackInRange (fullState.track t) := fullState_tracksInRange

/-- One strobe short of the interval at 120, on it, and a stopped clock under each gate. -/
theorem witness_StrobeRunsClockCheck :
    testState.params.clockGate = .modeInternal ∧ testState.tp.mode = .internal ∧
    testState.tp.running = false ∧ testState.tp.bpm ≠ 0 ∧
    ¬ (15000000 / testState.tp.bpm.toNat ≤ ((124998 + 1 : BitVec 32) - 0).toNat) ∧
    15000000 / testState.tp.bpm.toNat ≤ ((124999 + 1 : BitVec 32) - 0).toNat := by decide

/-- The slowest and the fastest tempo right after a tick, and elapsed times of one less than the interval, the
interval, the last but one and the last before the wrap. -/
theorem witness_InternalTicksAreOneIntervalApart :
    (let s := withTransport fun p => { p with bpm := 1 }
     clockGateOpen s.params.clockGate s.tp = true ∧ s.tp.bpm ≠ 0 ∧ s.tb.nowUs = s.tb.lastTickUs) ∧
    (let s := withTransport fun p => { p with bpm := 65535 }
     clockGateOpen s.params.clockGate s.tp = true ∧ s.tp.bpm ≠ 0 ∧ s.tb.nowUs = s.tb.lastTickUs) ∧
    strobesToTick 228 227 = 1 ∧ strobesToTick 228 228 = 1 ∧
    strobesToTick 228 (0xFFFFFFFE - 0 : BitVec 32).toNat = 1 ∧
    strobesToTick 228 (0 - 1 : BitVec 32).toNat = 229 := by
  decide

/-- At 65535 the tick falls due with the 228th microsecond; where the elapsed time has just wrapped to 0, as
one strobe after 2^32 - 1, it does not (42_transport.md R136; log 21). -/
theorem test_elapsed_wraps :
    let s := withTransport fun p => { p with bpm := 65535 }
    internalTickDue { s with tb := { nowUs := 227, lastTickUs := 0xFFFFFFFF } } = true ∧
    internalTickDue { s with tb := { nowUs := 226, lastTickUs := 0xFFFFFFFF } } = false ∧
    internalTickDue { s with tb := { nowUs := 0xFFFFFFFF, lastTickUs := 0 } } = true ∧
    internalTickDue { s with tb := { nowUs := 0xFFFFFFFF + 1, lastTickUs := 0 } } = false := by
  decide

theorem witness_TransportCountingLaws : ∀ t, TrackInRange (fullState.track t) := fullState_tracksInRange

theorem witness_StoppedExternalNeverTicks :
    let s := withTransport fun p => { p with mode := .external }
    s.params.clockGate = .modeInternal ∧ s.tp.mode = .external ∧ s.tp.running = false ∧
      ∀ x ∈ [Input.xport8 0xF8, .usStrobe, .cmd32 0x80000000, .busW 0x000001 0xFB],
        carriesStart x = false ∧ x ≠ .reset := by decide

theorem witness_ModeChangesOnlyByStartAndReset :
    (∃ t, perform (.busW 0x000001 0x1FA) testState = .next t) ∧ testState.tp.mode = .internal ∧
    carriesStart .usStrobe = false ∧ carriesStart (.busW 0x000001 0x1FA) = true ∧
    (withTransport fun p => { p with mode := .external }).tp.mode = .external :=
  ⟨⟨_, rfl⟩, by decide, by decide, by decide, by decide⟩

/-- Machines whose voices differ, and a run with sample requests and reads between its ticks. -/
theorem witness_SequencerIsIndependentOfRendering :
    SameSequencer testState voiceState ∧ testState.voice 1 ≠ voiceState.voice 1 ∧
    ∃ t rs, runEvents [.xport8 0xFA, .sampleReq, .busR 0x000003, .xport8 0xF8] testState
      = some (t, rs) :=
  ⟨⟨rfl, rfl, rfl, rfl⟩, by decide, _, _, rfl⟩

theorem witness_WritesToCmdAndXportRunTheirEvent :
    ((3 : TrackId).val = (0x1F00FFFE#32).toNat / 2 ^ 24 % 4 ∧
      (7 : VoiceId).val = (0x1F00FFFE#32).toNat / 2 ^ 24 % 8 ∧ (0x1F00FFFE#32).toNat / 2 ^ 28 = 1) ∧
    ((0 : TrackId).val = (0x000001FA#32).toNat / 2 ^ 24 % 4 ∧ (0x000001FA#32).toNat % 256 = 0xFA) ∧
    (0xF0000000#32).toNat / 2 ^ 28 = 0xF ∧ (0x000000FD#32).toNat % 256 = 0xFD := by decide

/-- A disabled voice of one sample, an enabled one, and one without a sample. -/
theorem witness_WriteVctrlEnablesLoadedVoice :
    (let s := testState.setVoice 7 { voiceReset with length := 1 }
     (1#32).getLsbD 0 = true ∧ (s.voice 7).enabled = false ∧ 1 ≤ (s.voice 7).length.toNat) ∧
    (0xFFFFFFFE#32).getLsbD 0 = false ∧ (voiceState.voice 1).enabled = true ∧
    (testState.voice 0).length = 0 := by decide

/-- The default size and the largest. -/
theorem witness_WriteVlenClampsWhileDisabled :
    testState.params.maxSamples ≤ 2 ^ 20 ∧ { testParams with maxSamples := 2 ^ 20 }.maxSamples ≤ 2 ^ 20 ∧
    (testState.voice 0).enabled = false ∧ (voiceState.voice 1).enabled = true := by decide

/-- The last index that exists, the first that does not, and a locked voice. -/
theorem witness_WriteSampleStoresWhileDisabled :
    ((0x0FFFF : BitVec 20).toNat < testState.params.maxSamples ∧ (testState.voice 0).enabled = false) ∧
    testState.params.maxSamples ≤ (0x10000 : BitVec 20).toNat ∧ (voiceState.voice 1).enabled = true := by
  decide

theorem witness_EnabledVoiceIsLocked :
    (voiceState.voice 1).enabled = true ∧ Input.busW 0x200000 5 ≠ .reset ∧
    ∃ t, perform (.busW 0x200000 5) voiceState = .next t :=
  ⟨by decide, by decide, _, rfl⟩

theorem witness_VoiceIsEnabledOnlyByVctrl :
    let s := testState.setVoice 7 { voiceReset with length := 1 }
    (s.voice 7).enabled = false ∧ ∃ t, perform (.busW 0x000138 1) s = .next t ∧
      (t.voice 7).enabled = true :=
  ⟨by decide, _, rfl, by decide⟩

theorem witness_LoadSequenceLoadsVoice :
    (testState.voice 7).enabled = false ∧ 1 ≤ [0x8000#16].length ∧
    [0x8000#16].length ≤ testState.params.maxSamples ∧ testState.params.maxSamples ≤ 2 ^ 20 ∧
    0 < [0x8000#16].length := by decide

theorem witness_ReadTransportRegisters : testState.params.maxSamples ≤ 2 ^ 20 := by decide

theorem witness_ReadSampleWindows :
    (0x0FFFF : BitVec 20).toNat < testState.params.maxSamples ∧
    testState.params.maxSamples ≤ (0x10000 : BitVec 20).toNat := by decide

/-- A disabled, an idle and a playing voice. -/
theorem witness_TriggerIgnoresStartsOrRetriggers :
    (testState.voice 0).enabled = false ∧
    ((voiceState.voice 1).enabled = true ∧ (voiceState.voice 1).isPlaying = false) ∧
    (((playingState 3).voice 1).enabled = true ∧ ((playingState 3).voice 1).isPlaying = true) := by decide

/-- A disabled voice, an idle one, and a playing one at its last sample and before it. -/
theorem witness_VoiceSampleDecaysThenPlays :
    voiceReset.enabled = false ∧
    ((voiceState.voice 1).enabled = true ∧ (voiceState.voice 1).isPlaying = false) ∧
    (((playingState 2).voice 1).isPlaying = true ∧
      ((playingState 2).voice 1).playbackPosition.toNat + 1 ≠ ((playingState 2).voice 1).length.toNat) ∧
    (((playingState 3).voice 1).enabled = true ∧ ((playingState 3).voice 1).isPlaying = true ∧
      ((playingState 3).voice 1).playbackPosition.toNat + 1 = ((playingState 3).voice 1).length.toNat) := by
  decide

theorem witness_TailOutlivingItsNoteIsSilent :
    (∀ v, ((tailState 0x3F000000).voice v).isPlaying = false) ∧
    ((tailState 0x3F000000).voice 1).enabled = true ∧
    ((tailState 0x3F000000).voice 1).decayActive = true := by decide

/-- The smallest normal value and the largest finite one, of each sign. -/
theorem witness_DecayFactorShrinksNormalTail :
    (f32isFinite 0x00800000 = true ∧ 0x00800000 ≤ f32mag 0x00800000) ∧
    (f32isFinite 0xFF7FFFFF = true ∧ 0x00800000 ≤ f32mag 0xFF7FFFFF) := by decide

/-- The test machine's parameters are legal. -/
theorem testParams_legal : LegalParams testParams where
  floor_normal := by decide
  floor_below_one := by decide
  frame_pos := Nat.succ_pos _
  samples_pos := by decide
  samples_le := by decide
  base_legal := by decide +kernel
  panL_le := by decide
  panR_le := by decide
  hard_left := by decide
  hard_right := by decide

/-- A tie: 1 + 2^-24 lies between 1 and 1 + 2^-23. -/
theorem witness_AddRoundsToNearestEven :
    f32isFinite 0x3F800000 = true ∧ f32isFinite 0x33800000 = true ∧ f32isFinite 0x3F800001 = true ∧
    f32isFinite (f32add 0x3F800000 0x33800000) = true ∧
    (f32int (f32add 0x3F800000 0x33800000) - (f32int 0x3F800000 + f32int 0x33800000)).natAbs
      = (f32int 0x3F800001 - (f32int 0x3F800000 + f32int 0x33800000)).natAbs ∧
    f32int 0x3F800001 ≠ f32int (f32add 0x3F800000 0x33800000) := by decide

/-- A tie: half of the least subnormal lies between it and 0. -/
theorem witness_MulRoundsToNearestEven :
    f32isFinite 0x00000001 = true ∧ f32isFinite 0x3F000000 = true ∧
    f32isFinite (f32mul 0x00000001 0x3F000000) = true ∧
    (f32int (f32mul 0x00000001 0x3F000000) * 2 ^ 149 - f32int 0x00000001 * f32int 0x3F000000).natAbs
      = (f32int 0x00000001 * 2 ^ 149 - f32int 0x00000001 * f32int 0x3F000000).natAbs ∧
    f32int 0x00000001 ≠ f32int (f32mul 0x00000001 0x3F000000) := by decide +kernel

/-- Voice 1 of `playingState 3`, written out. -/
def playingVoice : Voice :=
  { enabled := true, length := 4, playbackPosition := 3, gain := 0x3F000000, panIndex := 9,
    isPlaying := true, decayAmplitude := 0, decayActive := false }

theorem voiceReset_legal : LegalVoice testParams voiceReset := by constructor <;> decide
theorem playingVoice_legal : LegalVoice testParams playingVoice := by constructor <;> decide

theorem trackReset_legal : LegalTrack .formula trackReset where
  in_range := trackReset_inRange
  mask_fresh := by decide
  mask_count := by decide

/-- A tail just below the bound. -/
def longTail : Voice :=
  { enabled := true, length := 4, playbackPosition := 0, gain := 0x3F000000, panIndex := 9,
    isPlaying := false, decayAmplitude := 0x42C9FFFF, decayActive := true }

theorem longTail_legal : LegalVoice testParams longTail := by constructor <;> decide

theorem voices_legal {x : Voice} (h : LegalVoice testParams x) :
    ∀ v, LegalVoice testParams ((voiceState.setVoice 1 x).voice v)
  | 0 => voiceReset_legal
  | 1 => h
  | 2 => voiceReset_legal
  | 3 => voiceReset_legal
  | 4 => voiceReset_legal
  | 5 => voiceReset_legal
  | 6 => voiceReset_legal
  | 7 => voiceReset_legal

theorem voiceState_mem : LegalMem testParams.maxSamples voiceState.mem where
  canonical := by decide
  in_windows := by
    intro c hc
    simp only [voiceState, List.mem_cons, List.not_mem_nil, or_false] at hc
    rcases hc with rfl | rfl | rfl | rfl | rfl | rfl | rfl | rfl
    · exact ⟨1, 0, by decide, by decide⟩
    · exact ⟨1, 0, by decide, by decide⟩
    · exact ⟨1, 1, by decide, by decide⟩
    · exact ⟨1, 1, by decide, by decide⟩
    · exact ⟨1, 2, by decide, by decide⟩
    · exact ⟨1, 2, by decide, by decide⟩
    · exact ⟨1, 3, by decide, by decide⟩
    · exact ⟨1, 3, by decide, by decide⟩

theorem voiceState_transport : LegalTransport voiceState.tp := by constructor <;> decide

/-- The test machine with a legal voice 1 is legal. -/
theorem voiceState_legal {x : Voice} (h : LegalVoice testParams x) : Legal (voiceState.setVoice 1 x) where
  params := testParams_legal
  tracks
    | 0 => trackReset_legal
    | 1 => trackReset_legal
    | 2 => trackReset_legal
    | 3 => trackReset_legal
  voices := voices_legal h
  transport := voiceState_transport
  memory := voiceState_mem

theorem present_legal {s : State} (h : Legal s) (xs : List Input) : Legal (s.present xs) :=
  ⟨h.params, h.tracks, h.voices, h.transport, h.memory⟩

theorem witness_StepKeepsLegal :
    Legal ((voiceState.setVoice 1 playingVoice).present [.sampleReq]) ∧
    ∃ t, step ((voiceState.setVoice 1 playingVoice).present [.sampleReq]) = .next t :=
  ⟨present_legal (voiceState_legal playingVoice_legal) _, _, rfl⟩

/-- A retrigger tail under a note that has three samples to go. -/
def tailUnderNote : Voice :=
  { playingVoice with playbackPosition := 1, decayAmplitude := 0x3E000000, decayActive := true }

theorem tailUnderNote_legal : LegalVoice testParams tailUnderNote := by constructor <;> decide

/-- The largest finite tail of an idle voice, and a tail under a note. -/
theorem witness_EveryTailEnds :
    (LegalParams (tailState 0x7F7FFFFF).params ∧ ((tailState 0x7F7FFFFF).voice 1).enabled = true ∧
      ((tailState 0x7F7FFFFF).voice 1).isPlaying = false ∧
      f32isFinite ((tailState 0x7F7FFFFF).voice 1).decayAmplitude = true) ∧
    Legal (voiceState.setVoice 1 tailUnderNote) ∧ TailsBounded (voiceState.setVoice 1 tailUnderNote) :=
  ⟨⟨testParams_legal, by decide, by decide, by decide⟩, voiceState_legal tailUnderNote_legal,
    by unfold TailsBounded; decide⟩

theorem witness_StepKeepsTailsBounded :
    Legal ((voiceState.setVoice 1 longTail).present [.sampleReq]) ∧
    TailsBounded ((voiceState.setVoice 1 longTail).present [.sampleReq]) ∧
    ∃ t, step ((voiceState.setVoice 1 longTail).present [.sampleReq]) = .next t :=
  ⟨present_legal (voiceState_legal longTail_legal) _, by unfold TailsBounded; decide, _, rfl⟩

end Sys2Proof.Tests
end

section
/-! PROOFS. The step as equations, and `StepRunsDecodedInstruction` (00_scope.md R12, 60_exceptions.md
R203, R213). -/

namespace Sys2Proof.Machine

/-- What `perform` does with an event that decodes. -/
theorem perform_of_decode_ok {x : Input} {i : Instr} (hd : decode x = .ok i) (s : State) :
    perform x s = exec i s := by
  simp only [perform, hd]

/-- What `step` does with a first event to come. -/
theorem step_of_inputs_cons {s : State} {x : Input} {rest : List Input} (hs : s.inputs = x :: rest) :
    step s = perform x (s.takeInput rest) := by
  simp only [step, hs]

/-- What `step` does with an empty queue. -/
theorem step_of_inputs_nil {s : State} (hs : s.inputs = []) : step s = .next s.idle := by
  simp only [step, hs]

/-- Settles O6: `State.takeInput` and `State.idle` are the state updates that the statement writes out. -/
theorem stepRunsDecodedInstruction : Obligations.StepRunsDecodedInstruction := by
  refine ⟨fun s x rest i hs hd _ => ?_, fun s hs => step_of_inputs_nil hs⟩
  calc step s = perform x (s.takeInput rest) := step_of_inputs_cons hs
    _ = exec i (s.takeInput rest) := perform_of_decode_ok hd _

end Sys2Proof.Machine
end

section
/-! PROOFS. Rounding of binary32 (00_scope.md R11). `roundMag` is nearest among the magnitudes that
binary32 has because `roundShift` is nearest among the multiples of the last place `2^k`, and a magnitude
that is no such multiple lies below the binade of the exact value, so farther from it than the binade's
first value, which is a multiple. The sign is put on at the end. -/

namespace Sys2Proof.Machine

/-! ## Nearest, with ties to even -/

/-- `v` is as near to `x` as `w` is, and where a different `w` is as near, `even` holds. -/
def NearestToEven (x v w : Int) (even : Prop) : Prop :=
  (v - x).natAbs ≤ (w - x).natAbs ∧ ((v - x).natAbs = (w - x).natAbs → w ≠ v → even)

/-- A natural number with a sign. -/
def withSign (s : Bool) (n : Nat) : Int := if s then -(n : Int) else n

@[simp] theorem withSign_true (n : Nat) : withSign true n = -(n : Int) := rfl
@[simp] theorem withSign_false (n : Nat) : withSign false n = n := rfl
@[simp] theorem withSign_zero (s : Bool) : withSign s 0 = 0 := by cases s <;> rfl

theorem withSign_natAbs (z : Int) : withSign (decide (z < 0)) z.natAbs = z := by
  by_cases hz : z < 0
  · simp only [hz, decide_true, withSign_true]; omega
  · simp only [hz, decide_false, withSign_false]; omega

theorem withSign_mul (s t : Bool) (m n : Nat) :
    withSign s m * withSign t n = withSign (s != t) (m * n) := by
  cases s <;> cases t <;> simp

/-- Signs do not disturb nearness, where 0 is among the values compared: a value of the other sign is no
nearer than its magnitude with the right sign. -/
theorem NearestToEven.signed {n v w : Nat} {even : Prop} (h0 : NearestToEven n v 0 even)
    (hw : NearestToEven n v w even) (s t : Bool) :
    NearestToEven (withSign s n) (withSign s v) (withSign t w) even := by
  obtain ⟨hle0, -⟩ := h0
  obtain ⟨hle, htie⟩ := hw
  by_cases hst : t = s
  · subst t
    cases s
    · exact ⟨hle, htie⟩
    · simp only [NearestToEven, withSign_true]
      exact ⟨by omega, fun he hne => htie (by omega) (by omega)⟩
  · obtain rfl : t = !s := Bool.eq_not_of_ne hst
    have hopposite : (withSign (!s) w - withSign s n).natAbs = w + n := by
      cases s
      · simp only [Bool.not_false, withSign_true, withSign_false]; omega
      · simp only [Bool.not_true, withSign_true, withSign_false]; omega
    have hsame : (withSign s v - withSign s n).natAbs = ((v : Int) - n).natAbs := by
      cases s
      · rfl
      · simp only [withSign_true]; omega
    rw [NearestToEven, hopposite, hsame]
    refine ⟨by omega, fun he hne => htie (by omega) fun hwv => hne ?_⟩
    obtain ⟨rfl, rfl⟩ : v = 0 ∧ w = 0 := by omega
    simp

/-- Of two neighbours `lo` and `hi` around `n` the nearer one, or in a tie an even one, is nearest among all
values that do not lie between them. -/
theorem nearestToEven_of_between {n v w lo hi : Nat} {even : Prop} (hlo : lo ≤ n) (hhi : n ≤ hi)
    (hw : w ≤ lo ∨ hi ≤ w)
    (hv : (v = lo ∧ 2 * n < lo + hi) ∨ (v = hi ∧ lo + hi < 2 * n) ∨
      (even ∧ 2 * n = lo + hi ∧ (v = lo ∨ v = hi))) : NearestToEven n v w even := by
  rcases hv with ⟨rfl, hdown⟩ | ⟨rfl, hup⟩ | ⟨heven, htie, hv⟩
  · exact ⟨by omega, fun he hne => absurd he (by omega)⟩
  · exact ⟨by omega, fun he hne => absurd he (by omega)⟩
  · exact ⟨by omega, fun _ _ => heven⟩

/-! ## Rounding to a multiple of a power of two -/

/-- `roundShift` goes down below half, up above half, and in a tie to the even one. -/
theorem roundShift_cases (n k : Nat) :
    (roundShift n k = n / 2 ^ k ∧ 2 * (n % 2 ^ k) < 2 ^ k) ∨
    (roundShift n k = n / 2 ^ k + 1 ∧ 2 ^ k < 2 * (n % 2 ^ k)) ∨
    (roundShift n k % 2 = 0 ∧ 2 * (n % 2 ^ k) = 2 ^ k ∧
      (roundShift n k = n / 2 ^ k ∨ roundShift n k = n / 2 ^ k + 1)) := by
  simp only [roundShift]
  split <;> omega

theorem roundShift_nearest (n k j : Nat) :
    NearestToEven n (roundShift n k * 2 ^ k : Nat) (j * 2 ^ k : Nat) (roundShift n k % 2 = 0) := by
  have hn : n / 2 ^ k * 2 ^ k + n % 2 ^ k = n := Nat.div_add_mod' n (2 ^ k)
  have hr : n % 2 ^ k < 2 ^ k := Nat.mod_lt _ (by positivity)
  have hup : (n / 2 ^ k + 1) * 2 ^ k = n / 2 ^ k * 2 ^ k + 2 ^ k := Nat.succ_mul _ _
  refine nearestToEven_of_between (lo := n / 2 ^ k * 2 ^ k) (hi := (n / 2 ^ k + 1) * 2 ^ k)
    (by omega) (by omega) ?_ ?_
  · exact (Nat.lt_or_ge (n / 2 ^ k) j).symm.imp (Nat.mul_le_mul_right _) (Nat.mul_le_mul_right _)
  · rcases roundShift_cases n k with ⟨hq, hdown⟩ | ⟨hq, habove⟩ | ⟨heven, htie, hq⟩
    · exact .inl ⟨by rw [hq], by omega⟩
    · exact .inr (.inl ⟨by rw [hq], by omega⟩)
    · exact .inr (.inr ⟨heven, by omega, hq.imp (by rw [·]) (by rw [·])⟩)

theorem roundShift_le {n k : Nat} (hlt : n < 2 ^ 24 * 2 ^ k) : roundShift n k ≤ 2 ^ 24 := by
  have hq : n / 2 ^ k < 2 ^ 24 := Nat.div_lt_of_lt_mul (by rwa [mul_comm])
  have := roundShift_cases n k
  omega

theorem le_roundShift {n k : Nat} (hle : 2 ^ 23 * 2 ^ k ≤ n) : 2 ^ 23 ≤ roundShift n k := by
  have hq : 2 ^ 23 ≤ n / 2 ^ k := (Nat.le_div_iff_mul_le (by positivity)).2 hle
  have := roundShift_cases n k
  omega

/-! ## The magnitudes of binary32 -/

/-- The units of 2^-149 that 31 lower bits stand for: `f32units` as a function of `f32mag`. -/
def magUnits (m : Nat) : Nat :=
  if m / 0x800000 = 0 then m % 0x800000 else (0x800000 + m % 0x800000) * 2 ^ (m / 0x800000 - 1)

theorem f32units_eq_magUnits (a : F32) : f32units a = magUnits (f32mag a) := rfl

theorem f32int_eq_withSign (a : F32) : f32int a = withSign (f32sign a) (f32units a) := rfl

/-- A significand below 2^24, or one that has just reached it, in the place its exponent gives; without
the leading bit only in the first place. -/
theorem magUnits_significand {h q : Nat} (hq : q ≤ 2 ^ 24) (hnormal : h = 0 ∨ 2 ^ 23 ≤ q) :
    magUnits (h * 0x800000 + q) = q * 2 ^ h := by
  rcases Nat.lt_or_ge q (2 ^ 23) with hsub | hlead
  · obtain rfl : h = 0 := by omega
    have he : (0 * 0x800000 + q) / 0x800000 = 0 := by omega
    have hf : (0 * 0x800000 + q) % 0x800000 = q := by omega
    rw [magUnits, if_pos he, hf, pow_zero, mul_one]
  rcases Nat.lt_or_eq_of_le hq with hlt | rfl
  · have he : (h * 0x800000 + q) / 0x800000 = h + 1 := by omega
    have hf : 0x800000 + (h * 0x800000 + q) % 0x800000 = q := by omega
    rw [magUnits, he, if_neg (by omega), hf, Nat.add_sub_cancel]
  · have he : (h * 0x800000 + 2 ^ 24) / 0x800000 = h + 2 := by omega
    have hf : 0x800000 + (h * 0x800000 + 2 ^ 24) % 0x800000 = 2 ^ 23 := by omega
    rw [magUnits, he, if_neg (by omega), hf, Nat.add_sub_assoc (by omega), pow_add]
    ring

/-- A magnitude that is no multiple of `2^h`, the last place of the binade that starts at `2^23 * 2^h`,
lies below that binade. -/
theorem magUnits_dvd_or_lt (m h : Nat) : 2 ^ h ∣ magUnits m ∨ magUnits m < 2 ^ 23 * 2 ^ h := by
  have hf : m % 0x800000 < 0x800000 := Nat.mod_lt _ (by decide)
  unfold magUnits
  split
  · next he =>
    have : 0 < 2 ^ h := by positivity
    exact .inr (by omega)
  · next he =>
    rcases (Nat.lt_or_ge (m / 0x800000 - 1) h).symm with hge | hlt
    · exact .inl (Dvd.dvd.mul_left (pow_dvd_pow 2 hge) _)
    · right
      calc (0x800000 + m % 0x800000) * 2 ^ (m / 0x800000 - 1)
          < 2 ^ 24 * 2 ^ (m / 0x800000 - 1) :=
            Nat.mul_lt_mul_of_pos_right (by omega) (by positivity)
        _ = 2 ^ 23 * 2 ^ (m / 0x800000 - 1 + 1) := by rw [pow_succ]; ring
        _ ≤ 2 ^ 23 * 2 ^ h := Nat.mul_le_mul_left _ (Nat.pow_le_pow_right (by decide) hlt)

/-! ## `roundMag` -/

theorem le_droppedBits (n g : Nat) : g ≤ droppedBits n g := Nat.le_max_left _ _

theorem lt_two_pow_droppedBits (n g : Nat) : n < 2 ^ 24 * 2 ^ droppedBits n g :=
  calc n < 2 ^ (Nat.log2 n + 1) := Nat.lt_log2_self
    _ ≤ 2 ^ (24 + droppedBits n g) :=
      Nat.pow_le_pow_right (by decide) (by unfold droppedBits; omega)
    _ = 2 ^ 24 * 2 ^ droppedBits n g := pow_add _ _ _

/-- Bits are dropped beyond `g` only where the significand keeps its leading bit. -/
theorem droppedBits_eq_or_le (n g : Nat) :
    droppedBits n g = g ∨ 2 ^ 23 * 2 ^ droppedBits n g ≤ n := by
  by_cases hk : droppedBits n g = g
  · exact .inl hk
  have hlog : 23 + droppedBits n g = Nat.log2 n := by unfold droppedBits at hk ⊢; omega
  have hn : n ≠ 0 := by rintro rfl; simp at hlog
  refine .inr ?_
  rw [← pow_add, hlog]
  exact Nat.log2_self_le hn

theorem roundMag_le (n g : Nat) : roundMag n g ≤ 0x7F800000 := Nat.min_le_right _ _

theorem roundMag_of_lt {n g : Nat} (hfin : roundMag n g < 0x7F800000) :
    roundMag n g = (droppedBits n g - g) * 0x800000 + roundShift n (droppedBits n g) := by
  simp only [roundMag] at hfin ⊢
  omega

theorem roundMag_zero : roundMag 0 0 = 0 := by decide

/-- A finite rounded magnitude is the rounded significand in its place. -/
theorem magUnits_roundMag {n g : Nat} (hfin : roundMag n g < 0x7F800000) :
    magUnits (roundMag n g) * 2 ^ g = roundShift n (droppedBits n g) * 2 ^ droppedBits n g := by
  have hg := le_droppedBits n g
  have hnormal : droppedBits n g - g = 0 ∨ 2 ^ 23 ≤ roundShift n (droppedBits n g) :=
    (droppedBits_eq_or_le n g).imp (by omega) le_roundShift
  rw [roundMag_of_lt hfin, magUnits_significand (roundShift_le (lt_two_pow_droppedBits n g)) hnormal,
    mul_assoc, ← pow_add, Nat.sub_add_cancel hg]

/-- Against a multiple of the last place `roundShift_nearest` decides. Any other magnitude lies below the
binade of `n`, whose first value is a multiple of the last place and nearer to `n`. -/
theorem roundMag_nearest {n g : Nat} (hfin : roundMag n g < 0x7F800000) (m : Nat) :
    NearestToEven n (magUnits (roundMag n g) * 2 ^ g : Nat) (magUnits m * 2 ^ g : Nat)
      (roundMag n g % 2 = 0) := by
  have hg := le_droppedBits n g
  have hparity : roundMag n g % 2 = roundShift n (droppedBits n g) % 2 := by
    rw [roundMag_of_lt hfin]; omega
  have hscale (x : Nat) : x * 2 ^ (droppedBits n g - g) * 2 ^ g = x * 2 ^ droppedBits n g := by
    rw [mul_assoc, ← pow_add, Nat.sub_add_cancel hg]
  rw [magUnits_roundMag hfin, hparity]
  have hmultiple (x : Nat) (hx : magUnits m = x * 2 ^ (droppedBits n g - g)) :
      NearestToEven n (roundShift n (droppedBits n g) * 2 ^ droppedBits n g : Nat)
        (magUnits m * 2 ^ g : Nat) (roundShift n (droppedBits n g) % 2 = 0) := by
    rw [hx, hscale]
    exact roundShift_nearest n _ x
  rcases magUnits_dvd_or_lt m (droppedBits n g - g) with ⟨x, hx⟩ | hsmall
  · exact hmultiple x (by rw [hx, mul_comm])
  rcases droppedBits_eq_or_le n g with hk | hbinade
  · exact hmultiple (magUnits m) (by simp [hk])
  have hbelow : magUnits m * 2 ^ g < 2 ^ 23 * 2 ^ droppedBits n g := by
    rw [← hscale]
    exact Nat.mul_lt_mul_of_pos_right hsmall (by positivity)
  obtain ⟨hle, -⟩ := roundShift_nearest n (droppedBits n g) (2 ^ 23)
  exact ⟨by omega, fun he => by omega⟩

/-! ## The two operations -/

theorem f32mag_f32make (s : Bool) {m : Nat} (hm : m < 0x80000000) : f32mag (f32make s m) = m := by
  cases s <;> simp [f32mag, f32make] <;> omega

theorem f32sign_f32make (s : Bool) {m : Nat} (hm : m < 0x80000000) : f32sign (f32make s m) = s := by
  simp only [f32sign, f32make, BitVec.getLsbD_ofNat, Nat.testBit_eq_decide_div_mod_eq]
  cases s <;> simp <;> omega

theorem f32isFinite_iff (a : F32) : f32isFinite a = true ↔ f32mag a < 0x7F800000 := by
  simp [f32isFinite]

theorem not_isNaN_of_isFinite {a : F32} (ha : f32isFinite a = true) : f32isNaN a = false := by
  have hlt := (f32isFinite_iff a).1 ha
  exact decide_eq_false (by omega)

theorem not_isInf_of_isFinite {a : F32} (ha : f32isFinite a = true) : f32isInf a = false := by
  simpa [f32isInf] using ((f32isFinite_iff a).1 ha).ne

/-- The sum of finite operands, rounded once: the sign of an exact zero is free. -/
theorem f32add_of_isFinite {a b : F32} (ha : f32isFinite a = true) (hb : f32isFinite b = true) :
    ∃ s n, f32int a + f32int b = withSign s n ∧ f32add a b = f32make s (roundMag n 0) := by
  simp only [f32add, not_isNaN_of_isFinite, not_isInf_of_isFinite, ha, hb]
  by_cases hz : f32int a + f32int b = 0
  · exact ⟨f32sign a && f32sign b, 0, by simp [hz], by simp [hz, roundMag_zero]⟩
  · exact ⟨_, _, (withSign_natAbs _).symm, by simp [hz]⟩

/-- The product of finite operands, rounded once. -/
theorem f32mul_of_isFinite {a b : F32} (ha : f32isFinite a = true) (hb : f32isFinite b = true) :
    ∃ s n, f32int a * f32int b = withSign s n ∧ f32mul a b = f32make s (roundMag n 149) :=
  ⟨f32sign a != f32sign b, f32units a * f32units b, withSign_mul _ _ _ _, by
    simp [f32mul, not_isNaN_of_isFinite, not_isInf_of_isFinite, ha, hb]⟩

/-- A finite binary32 made of a sign and a rounded magnitude is nearest, ties to even, among all binary32
values. -/
theorem f32make_roundMag_nearest {s : Bool} {n g : Nat} {r : F32} (hr : r = f32make s (roundMag n g))
    (hfin : f32isFinite r = true) (c : F32) :
    NearestToEven (withSign s n) (f32int r * 2 ^ g) (f32int c * 2 ^ g) (f32frac r % 2 = 0) := by
  have hrange : roundMag n g < 0x80000000 := Nat.lt_of_le_of_lt (roundMag_le n g) (by decide)
  have hmag : f32mag r = roundMag n g := hr ▸ f32mag_f32make s hrange
  have hsign : f32sign r = s := hr ▸ f32sign_f32make s hrange
  have hlt : roundMag n g < 0x7F800000 := hmag ▸ (f32isFinite_iff r).1 hfin
  have hparity : f32frac r % 2 = roundMag n g % 2 := by rw [f32frac, hmag]; omega
  have hscale (a : F32) : f32int a * 2 ^ g = withSign (f32sign a) (magUnits (f32mag a) * 2 ^ g) := by
    have := withSign_mul (f32sign a) false (f32units a) (2 ^ g)
    simpa [f32int_eq_withSign, f32units_eq_magUnits] using this
  rw [hscale, hscale, hmag, hsign, hparity]
  have hzero := roundMag_nearest hlt 0
  simp only [magUnits, Nat.zero_div, Nat.zero_mod, if_true, Nat.zero_mul] at hzero
  exact hzero.signed (roundMag_nearest hlt _) s _

/-- Settles O54: a finite sum is the exact sum rounded once, in the unit 2^-149. -/
theorem addRoundsToNearestEven : Obligations.AddRoundsToNearestEven := by
  intro a b c ha hb _ hfin
  obtain ⟨s, n, hexact, hadd⟩ := f32add_of_isFinite ha hb
  have hnear := f32make_roundMag_nearest hadd hfin c
  simpa only [hexact, NearestToEven, pow_zero, mul_one] using hnear

/-- Settles O55: a finite product is the exact product rounded once, in the unit 2^-298. -/
theorem mulRoundsToNearestEven : Obligations.MulRoundsToNearestEven := by
  intro a b c ha hb _ hfin
  obtain ⟨s, n, hexact, hmul⟩ := f32mul_of_isFinite ha hb
  obtain ⟨hle, htie⟩ := f32make_roundMag_nearest hmul hfin c
  simp only [hexact]
  exact ⟨hle, fun he hne => htie he fun hscaled => hne (mul_right_cancel₀ (by decide) hscaled)⟩

end Sys2Proof.Machine
end

section
/-! PROOFS. `Generate(s, p, r)` sets `p` steps (40_rhythm.md R103), for every legal `EUCLID_BASE`: the base
pattern does, and a rotation reads the same pattern around the loop from another step on, so that it counts
one full period of it. -/

namespace Sys2Proof.Machine

/-! ## Counting -/

theorem count_congr_of_lt {p q : Nat → Prop} [DecidablePred p] [DecidablePred q] {n : Nat}
    (h : ∀ i < n, (p i ↔ q i)) : Nat.count p n = Nat.count q n :=
  le_antisymm (Nat.count_mono_left fun i hi => (h i hi).1) (Nat.count_mono_left fun i hi => (h i hi).2)

/-- One full period counts the same wherever it starts. -/
theorem count_shift_of_periodic {p : Nat → Prop} [DecidablePred p] {s : Nat}
    (hp : ∀ i, p (s + i) ↔ p i) (k : Nat) : Nat.count (fun i => p (k + i)) s = Nat.count p s := by
  have hcycle : Nat.count (fun i => p (s + i)) k = Nat.count p k := by simp only [hp]
  have hsplit := Nat.count_add p k s
  rw [Nat.add_comm, Nat.count_add, hcycle] at hsplit
  omega

/-! ## The steps a mask sets -/

theorem length_setSteps (m : BitVec 16) (s : Nat) :
    (setSteps m s).length = Nat.count (fun i => m.getLsbD i = true) s := by
  induction s with
  | zero => simp [setSteps]
  | succ n ih =>
    rw [Nat.count_succ, ← ih]
    by_cases h : m.getLsbD n = true <;> simp [setSteps, List.range_succ, h]

theorem getLsbD_of_toNat_lt {m : BitVec 16} {s i : Nat} (hm : m.toNat < 2 ^ s) (hi : s ≤ i) :
    m.getLsbD i = false :=
  Nat.testBit_lt_two_pow (lt_of_lt_of_le hm (Nat.pow_le_pow_right (by decide) hi))

theorem popcount_eq_length_setSteps {m : BitVec 16} {s : Nat} (hs : s ≤ 16) (hm : m.toNat < 2 ^ s) :
    popcount m = (setSteps m s).length := by
  have habove : Nat.count (fun i => m.getLsbD (s + i) = true) (16 - s) = 0 :=
    Nat.count_iff_forall_not.2 fun i _ => by simp [getLsbD_of_toNat_lt hm (Nat.le_add_right s i)]
  have hsplit := Nat.count_add (fun i => m.getLsbD i = true) s (16 - s)
  rw [Nat.add_sub_cancel' hs, habove, Nat.add_zero] at hsplit
  rw [popcount, length_setSteps, length_setSteps, hsplit]

/-! ## Rotation -/

theorem rotL_toNat_lt (m : BitVec 16) (r s : Nat) : (rotL m r s).toNat < 2 ^ s := by
  rw [rotL, BitVec.toNat_ofNat]
  exact lt_of_le_of_lt (Nat.mod_le _ _) (Nat.mod_lt _ (by positivity))

/-- Step `i` of a rotated pattern is the step `s - r` above it, around the loop. -/
theorem getLsbD_rotL {m : BitVec 16} {r s i : Nat} (hs : s ≤ 16) (hr : r < s) (hi : i < s)
    (hm : m.toNat < 2 ^ s) : (rotL m r s).getLsbD i = m.getLsbD ((s - r + i) % s) := by
  have hi16 : i < 16 := by omega
  have hbit : (rotL m r s).getLsbD i
      = (decide (r ≤ i) && m.getLsbD (i - r) || m.getLsbD (s - r + i)) := by
    simp only [rotL, BitVec.getLsbD_ofNat, hi16, hi, decide_true, Bool.true_and, Nat.testBit_mod_two_pow,
      Nat.testBit_or, Nat.testBit_shiftLeft, Nat.testBit_shiftRight, BitVec.testBit_toNat, ge_iff_le]
  rw [hbit]
  by_cases hri : r ≤ i
  · have hwrap : (s - r + i) % s = i - r := by
      rw [show s - r + i = i - r + s by omega, Nat.add_mod_right, Nat.mod_eq_of_lt (by omega)]
    simp [hri, hwrap, getLsbD_of_toNat_lt hm (show s ≤ s - r + i by omega)]
  · simp [hri, Nat.mod_eq_of_lt (show s - r + i < s by omega)]

theorem length_setSteps_rotL {m : BitVec 16} {r s : Nat} (hs : s ≤ 16) (hr : r < s)
    (hm : m.toNat < 2 ^ s) : (setSteps (rotL m r s) s).length = (setSteps m s).length := by
  simp only [length_setSteps]
  calc Nat.count (fun i => (rotL m r s).getLsbD i = true) s
      = Nat.count (fun i => m.getLsbD ((s - r + i) % s) = true) s :=
        count_congr_of_lt fun i hi => by rw [getLsbD_rotL hs hr hi hm]
    _ = Nat.count (fun i => m.getLsbD (i % s) = true) s :=
        count_shift_of_periodic (p := fun i => m.getLsbD (i % s) = true)
          (fun i => by rw [Nat.add_mod_left]) (s - r)
    _ = Nat.count (fun i => m.getLsbD i = true) s :=
        count_congr_of_lt fun i hi => by rw [Nat.mod_eq_of_lt hi]

/-! ## Generate -/

theorem legalBaseMask_euclidOf {base : EuclidBase} {s p : Nat} (hbase : legalBase base = true)
    (hs : s ≤ 16) (hp : p ≠ 0) (hps : p < s) : legalBaseMask s p (euclidOf base s p) = true := by
  have hrow := List.all_eq_true.1 hbase s (List.mem_range.2 (Nat.lt_succ_of_le hs))
  simpa [hp] using List.all_eq_true.1 hrow p (List.mem_range.2 hps)

/-- `Generate` on its domain (40_rhythm.md R100). -/
theorem generate_of_lt (base : EuclidBase) {s p r : Nat} (hs : s ≤ 16) (hps : p < s) (hrs : r < s) :
    generate base s p r = if p = 0 then 0 else rotL (euclidOf base s p) r s := by
  have hdom : inGenerateDomain s p r = true := decide_eq_true ⟨by omega, hs, hps, hrs⟩
  rw [generate, if_pos hdom]

theorem popcount_generate {base : EuclidBase} {s p r : Nat} (hbase : legalBase base = true)
    (hs : s ≤ 16) (hps : p < s) (hrs : r < s) : popcount (generate base s p r) = p := by
  rw [generate_of_lt base hs hps hrs]
  by_cases hp : p = 0
  · rw [if_pos hp, hp]; decide
  · have hlegal := legalBaseMask_euclidOf hbase hs hp hps
    simp only [legalBaseMask, Bool.and_eq_true, decide_eq_true_eq] at hlegal
    obtain ⟨⟨hcount, hlt⟩, -⟩ := hlegal
    rw [if_neg hp, popcount_eq_length_setSteps hs (rotL_toNat_lt _ _ _), length_setSteps_rotL hs hrs hlt,
      hcount]

end Sys2Proof.Machine
end

section
/-! PROOFS. What one event can do, said once: `perform_hasEffect` finds for every event and every state the
next state among the constructors of `Effect`. An invariant of the machine is then a case split over
`Effect` and not over the rows of the opcode table. -/

namespace Sys2Proof.Machine

/-! ## The effects of an event -/

/-- The ranges that an edit must leave before clamp-recompute; clamp-recompute sees to the others. -/
structure LoopAndDivisionInRange (k : Track) : Prop where
  length_pos : 1 ≤ k.loopLength.toNat
  length_le : k.loopLength.toNat ≤ maxSteps
  division_le : k.clockDivisionIndex.toNat ≤ divIndexMax

/-- The states event `x` can lead to from `s`. Only a START, the reset input and a VCTRL write name their
event: the other effects do not depend on it. -/
inductive Effect (x : Input) (s : State) : State → Prop
  | hold : Effect x s s
  | answer (d : Word) : Effect x s (s.answer d)
  | editTrack (t : TrackId) (f : Track → Track)
      (hf : ∀ k, LoopAndDivisionInRange k → LoopAndDivisionInRange (f k)) :
      Effect x s (s.editTrack t f)
  | setHold (t : TrackId) (h : Bool) : Effect x s (s.setTrack t { s.track t with manualHold := h })
  | trigger (v : VoiceId) : Effect x s (s.trigger v)
  | pulse (hrun : s.tp.running = true) :
      Effect x s { s with tp := { s.tp with pulseCounter := nextPulse s.tp.pulseCounter } }
  | pulseTick (hrun : s.tp.running = true) :
      Effect x s (State.tick
        { s with tp := { s.tp with pulseCounter := nextPulse s.tp.pulseCounter } })
  | start (hx : carriesStart x = true) :
      Effect x s (State.startSequence { s with tp := { s.tp with mode := .external, running := true } })
  | stop : Effect x s { s with tp := { s.tp with running := false, pulseCounter := 0 } }
  | strobe : Effect x s { s with tb := { s.tb with nowUs := s.tb.nowUs + 1 } }
  | strobeTick (hdue : internalTickDue { s with tb := { s.tb with nowUs := s.tb.nowUs + 1 } } = true) :
      Effect x s (State.tick
        { s with tb := { nowUs := s.tb.nowUs + 1, lastTickUs := s.tb.nowUs + 1 } })
  | setBpm (b : BitVec 16) : Effect x s { s with tp := { s.tp with bpm := b } }
  | enable (v : VoiceId) (d : Word) (hx : x = .busW (voiceRegAddr v 0) d) (hd : d.getLsbD 0 = true)
      (hoff : (s.voice v).enabled = false) (hlen : 1 ≤ (s.voice v).length.toNat) :
      Effect x s (s.setVoice v { s.voice v with enabled := true })
  | setLength (v : VoiceId) (d : Word) (hoff : (s.voice v).enabled = false) :
      Effect x s (s.setVoice v { s.voice v with length := clampVlen s.params.maxSamples d })
  | setGain (v : VoiceId) (d : Word) :
      Effect x s (s.setVoice v { s.voice v with gain := clampGain d })
  | setPan (v : VoiceId) (d : Word) :
      Effect x s (s.setVoice v { s.voice v with panIndex := clampPan d })
  | setSample (v : VoiceId) (i : BitVec 20) (w : Sample) (hi : i.toNat < s.params.maxSamples)
      (hoff : (s.voice v).enabled = false) : Effect x s (s.setSample v i w)
  | render : Effect x s s.render
  | reset (hx : x = .reset) : Effect x s s.applyReset

/-- An outcome is a next state that `Effect` names. -/
def HasEffect (x : Input) (s : State) (o : Host.Outcome State Fault Refusal) : Prop :=
  ∃ t, o = .next t ∧ Effect x s t

theorem Effect.hasEffect {x : Input} {s t : State} (h : Effect x s t) : HasEffect x s (.next t) :=
  ⟨t, rfl, h⟩

/-! ## Command words and transport codes -/

theorem LoopAndDivisionInRange.editField {k : Track} (h : LoopAndDivisionInRange k) (dec : Bool) :
    LoopAndDivisionInRange (editField dec k) := by
  obtain ⟨hpos, hle, hdiv⟩ := h
  unfold Machine.editField
  split
  case h_1 => exact ⟨hpos, hle, hdiv⟩
  case h_2 => exact ⟨hpos, hle, hdiv⟩
  case h_3 =>
    have hrange : 1 ≤ (editLength k.loopLength dec).toNat ∧
        (editLength k.loopLength dec).toNat ≤ maxSteps := by
      rw [maxSteps_eq] at hle ⊢
      rw [editLength_toNat k.loopLength dec hpos hle]
      split <;> omega
    exact ⟨hrange.1, hrange.2, hdiv⟩

theorem LoopAndDivisionInRange.setLength {k : Track} (h : LoopAndDivisionInRange k) (n : Nat) :
    LoopAndDivisionInRange { k with loopLength := clampLength n } := by
  have hrange : 1 ≤ (clampLength n).toNat ∧ (clampLength n).toNat ≤ maxSteps := by
    rw [clampLength_toNat, maxSteps_eq]
    omega
  exact ⟨hrange.1, hrange.2, h.division_le⟩

theorem LoopAndDivisionInRange.setDivision {k : Track} (h : LoopAndDivisionInRange k) (n : BitVec 16) :
    LoopAndDivisionInRange { k with clockDivisionIndex := clampDivision n } :=
  ⟨h.length_pos, h.length_le, by simp only [clampDivision_toNat, divIndexMax_eq]; omega⟩

theorem LoopAndDivisionInRange.setPulses {k : Track} (h : LoopAndDivisionInRange k) (n : Nat) :
    LoopAndDivisionInRange { k with pulseCount := clampStep n k.loopLength } :=
  ⟨h.length_pos, h.length_le, h.division_le⟩

theorem LoopAndDivisionInRange.setRotation {k : Track} (h : LoopAndDivisionInRange k) (n : Nat) :
    LoopAndDivisionInRange { k with rotation := clampStep n k.loopLength } :=
  ⟨h.length_pos, h.length_le, h.division_le⟩

theorem LoopAndDivisionInRange.setEditMode {k : Track} (h : LoopAndDivisionInRange k) (mode : EditMode) :
    LoopAndDivisionInRange { k with editMode := mode } :=
  ⟨h.length_pos, h.length_le, h.division_le⟩

theorem execSetMode_hasEffect (x : Input) (t : TrackId) (m : BitVec 2) (s : State) :
    HasEffect x s (execSetMode t m s) := by
  unfold execSetMode
  split
  · exact (Effect.editTrack t _ fun _ h => h.setEditMode _).hasEffect
  · exact Effect.hold.hasEffect

theorem exec_decodeCmd32_hasEffect (x : Input) (d : Word) (s : State) :
    HasEffect x s (exec (decodeCmd32 d) s) := by
  unfold decodeCmd32
  split
  case h_1 => exact Effect.hold.hasEffect
  case h_2 => exact (Effect.editTrack _ _ fun _ h => h.editField _).hasEffect
  case h_3 => exact execSetMode_hasEffect x _ _ s
  case h_4 => exact (Effect.editTrack _ _ fun _ h => h.setDivision _).hasEffect
  case h_5 => exact (Effect.setHold _ _).hasEffect
  case h_6 => exact (Effect.editTrack _ _ fun _ h => h.setLength _).hasEffect
  case h_7 => exact (Effect.editTrack _ _ fun _ h => h.setPulses (cmdImm d).toNat).hasEffect
  case h_8 => exact (Effect.editTrack _ _ fun _ h => h.setRotation (cmdImm d).toNat).hasEffect
  case h_9 => exact (Effect.trigger _).hasEffect
  all_goals exact Effect.hold.hasEffect

theorem execClock_hasEffect (x : Input) (s : State) : HasEffect x s (execClock s) := by
  unfold execClock
  split
  · next hrun =>
    dsimp only
    split
    · exact (Effect.pulseTick hrun).hasEffect
    · exact (Effect.pulse hrun).hasEffect
  · exact Effect.hold.hasEffect

theorem exec_decodeXport8_hasEffect (x : Input) (c : BitVec 8) (s : State)
    (hx : c = 0xFA → carriesStart x = true) : HasEffect x s (exec (decodeXport8 c) s) := by
  unfold decodeXport8
  split
  · exact execClock_hasEffect x s
  · exact (Effect.start (hx rfl)).hasEffect
  · exact Effect.hold.hasEffect
  · exact Effect.stop.hasEffect
  · exact Effect.hold.hasEffect

/-! ## Bus writes -/

/-- A write to CMD runs the command word it carries (44_host_bus.md R172). -/
theorem execWrCmd_eq (d : Word) (s : State) : execWrCmd d s = exec (decodeCmd32 d) s := by
  unfold execWrCmd decodeCmd32
  generalize cmdOp d = op
  obtain ⟨⟨n, hn⟩⟩ := op
  interval_cases n <;> rfl

theorem decodeXport8_reserved {c : BitVec 8} (hclock : c ≠ 0xF8) (hstart : c ≠ 0xFA) (hcont : c ≠ 0xFB)
    (hstop : c ≠ 0xFC) : decodeXport8 c = .xportReserved c := by
  unfold decodeXport8
  split
  · exact absurd rfl hclock
  · exact absurd rfl hstart
  · exact absurd rfl hcont
  · exact absurd rfl hstop
  · rfl

/-- A write to XPORT runs the code in its low byte (44_host_bus.md R172). -/
theorem execWrXport_eq (d : Word) (s : State) :
    execWrXport d s = exec (decodeXport8 (d.extractLsb' 0 8)) s := by
  unfold execWrXport
  split
  · next hcode => rw [hcode]; rfl
  · next hcode => rw [hcode]; rfl
  · next hcode => rw [hcode]; rfl
  · next hcode => rw [hcode]; rfl
  · next hclock hstart hcont hstop => rw [decodeXport8_reserved hclock hstart hcont hstop]; rfl

theorem execWrCmd_hasEffect (x : Input) (d : Word) (s : State) : HasEffect x s (execWrCmd d s) := by
  rw [execWrCmd_eq]
  exact exec_decodeCmd32_hasEffect x d s

theorem execWrXport_hasEffect (x : Input) (d : Word) (s : State)
    (hx : d.extractLsb' 0 8 = 0xFA → carriesStart x = true) : HasEffect x s (execWrXport d s) := by
  rw [execWrXport_eq]
  exact exec_decodeXport8_hasEffect x _ s hx

/-- An address in the voice block is the address of its register of its voice. -/
theorem voiceRegAddr_of_isVoiceReg {wa : WordAddr} (h : isVoiceReg wa = true) :
    voiceRegAddr (voiceRegVoice wa) (voiceRegIndex wa) = wa := by
  have hblock : (0x4#18 : BitVec 18) = wa.extractLsb' 6 18 := (eq_of_beq h).symm
  rw [voiceRegAddr, voiceRegVoice, voiceRegIndex, bitsOfVoice_voiceOfBits, hblock,
    BitVec.extractLsb'_append_extractLsb'_eq_extractLsb' (show 6 = 3 + 3 from rfl),
    BitVec.extractLsb'_append_extractLsb'_eq_extractLsb' (show 3 = 0 + 3 from rfl)]
  exact BitVec.extractLsb'_eq_self

theorem execWrVctrl_hasEffect (x : Input) (v : VoiceId) (d : Word) (s : State)
    (hx : x = .busW (voiceRegAddr v 0) d) : HasEffect x s (execWrVctrl v d s) := by
  unfold execWrVctrl
  split
  · next h =>
    obtain ⟨hd, hoff, hlen⟩ := h
    exact (Effect.enable v d hx hd hoff hlen).hasEffect
  · exact Effect.hold.hasEffect

theorem execWrVlen_hasEffect (x : Input) (v : VoiceId) (d : Word) (s : State) :
    HasEffect x s (execWrVlen v d s) := by
  unfold execWrVlen
  split
  · exact Effect.hold.hasEffect
  · next hon => exact (Effect.setLength v d (eq_false_of_ne_true hon)).hasEffect

theorem storeSample_hasEffect (x : Input) (v : VoiceId) (i : BitVec 20) (d : Word) (s : State) :
    HasEffect x s (.next (s.storeSample v i d)) := by
  rcases storeSample_cases s v i d with ⟨hi, hoff, h⟩ | ⟨-, h⟩ <;> rw [h]
  · exact (Effect.setSample v i _ hi hoff).hasEffect
  · exact Effect.hold.hasEffect

/-- What `perform` does with what the decoder answers. -/
def performDecoded (r : Except Unlisted Instr) (s : State) : Host.Outcome State Fault Refusal :=
  match r with
  | .ok i => exec i s
  | .error u => execUnlisted u s

theorem perform_eq_performDecoded (x : Input) (s : State) : perform x s = performDecoded (decode x) s := rfl

theorem decodeRegisterWrite_hasEffect (wa : WordAddr) (d : Word) (s : State) :
    HasEffect (.busW wa d) s (performDecoded (decodeRegisterWrite wa d) s) := by
  unfold decodeRegisterWrite
  split
  · exact execWrCmd_hasEffect _ d s
  split
  · next hwa => exact execWrXport_hasEffect _ d s fun hc => by simp [carriesStart, hwa, hc]
  split
  · exact (Effect.setBpm _).hasEffect
  split
  · next hvoice =>
    have hwa := voiceRegAddr_of_isVoiceReg hvoice
    split
    · next hk => exact execWrVctrl_hasEffect _ _ d s (congrArg (Input.busW · d) (hk ▸ hwa).symm)
    · exact execWrVlen_hasEffect _ _ d s
    · exact (Effect.setGain _ d).hasEffect
    · exact (Effect.setPan _ d).hasEffect
    · exact Effect.hold.hasEffect
  · exact Effect.hold.hasEffect

theorem decodeBusW_hasEffect (wa : WordAddr) (d : Word) (s : State) :
    HasEffect (.busW wa d) s (performDecoded (decodeBusW wa d) s) := by
  unfold decodeBusW
  split
  · exact decodeRegisterWrite_hasEffect wa d s
  case h_10 => exact Effect.hold.hasEffect
  all_goals exact storeSample_hasEffect _ _ _ d s

/-! ## Bus reads -/

/-- An outcome is the answer of some value. -/
def HasAnswer (s : State) (o : Host.Outcome State Fault Refusal) : Prop := ∃ w, o = .next (s.answer w)

theorem answerWindow_hasAnswer (s : State) (v : VoiceId) (i : BitVec 20) :
    HasAnswer s (.next (s.answerWindow v i)) := by
  rcases answerWindow_cases s v i with ⟨-, h⟩ | ⟨-, h⟩ <;> exact ⟨_, congrArg _ h⟩

/-- Every register of region 0 answers the word its row packs; a word without a row answers 0. -/
theorem decodeRegisterRead_hasAnswer (wa : WordAddr) (s : State) :
    HasAnswer s (performDecoded (decodeRegisterRead wa) s) := by
  unfold decodeRegisterRead
  repeat' split
  all_goals exact ⟨_, rfl⟩

theorem decodeBusR_hasAnswer (wa : WordAddr) (s : State) :
    HasAnswer s (performDecoded (decodeBusR wa) s) := by
  unfold decodeBusR
  split
  case h_1 => exact decodeRegisterRead_hasAnswer wa s
  case h_10 => exact ⟨0, rfl⟩
  all_goals exact answerWindow_hasAnswer s _ _

/-! ## Every event -/

theorem execUsStrobe_hasEffect (x : Input) (s : State) : HasEffect x s (execUsStrobe s) := by
  unfold execUsStrobe
  rcases internalClockCheck_cases { s with tb := { s.tb with nowUs := s.tb.nowUs + 1 } } with
    ⟨hdue, h⟩ | ⟨-, h⟩ <;> rw [h]
  · exact (Effect.strobeTick hdue).hasEffect
  · exact Effect.strobe.hasEffect

/-- Every event leads from every state to a next state that `Effect` names (60_exceptions.md R200). -/
theorem perform_hasEffect (x : Input) (s : State) : HasEffect x s (perform x s) := by
  rw [perform_eq_performDecoded]
  cases x with
  | cmd32 d => exact exec_decodeCmd32_hasEffect _ d s
  | xport8 c => exact exec_decodeXport8_hasEffect _ c s fun hc => by simp [carriesStart, hc]
  | busW wa d => exact decodeBusW_hasEffect wa d s
  | busR wa =>
    obtain ⟨w, hw⟩ := decodeBusR_hasAnswer wa s
    exact ⟨_, hw, .answer w⟩
  | usStrobe => exact execUsStrobe_hasEffect _ s
  | sampleReq => exact Effect.render.hasEffect
  | reset => exact (Effect.reset rfl).hasEffect

theorem effect_of_perform {x : Input} {s t : State} (h : perform x s = .next t) : Effect x s t := by
  obtain ⟨u, hu, he⟩ := perform_hasEffect x s
  rw [hu] at h
  cases h
  exact he

/-- A step holds the state, or takes the first event to come and has an effect that it names. -/
theorem effect_of_step {s t : State} (h : step s = .next t) :
    (s.inputs = [] ∧ t = s.idle) ∨
      ∃ x rest, s.inputs = x :: rest ∧ Effect x (s.takeInput rest) t := by
  cases hs : s.inputs with
  | nil =>
    rw [step_of_inputs_nil hs] at h
    cases h
    exact .inl ⟨rfl, rfl⟩
  | cons x rest =>
    rw [step_of_inputs_cons hs] at h
    exact .inr ⟨x, rest, rfl, effect_of_perform h⟩

/-- An event that carries START runs START, in either presentation (44_host_bus.md R172). -/
theorem perform_of_carriesStart {x : Input} (hx : carriesStart x = true) (s : State) :
    perform x s = execStart s := by
  cases x <;> simp only [carriesStart, Bool.false_eq_true, Bool.and_eq_true, beq_iff_eq] at hx
  case xport8 c => rw [hx]; rfl
  case busW wa d =>
    obtain ⟨rfl, hcode⟩ := hx
    calc perform (.busW 0x000001 d) s = execWrXport d s := rfl
      _ = exec (decodeXport8 0xFA) s := by rw [execWrXport_eq, hcode]; rfl
      _ = execStart s := rfl

/-! ## Operations that are folds -/

/-- What an advance and a trigger keep, the turns of all tracks in a tick keep. -/
theorem foldl_tickTrack_induction {P : State → Prop} (hadv : ∀ s t, P s → P (s.advance t))
    (htrig : ∀ s v, P s → P (s.trigger v)) (sc : BitVec 5) (l : List TrackId) {s : State} (hs : P s) :
    P (l.foldl (State.tickTrack sc) s) := by
  have hgate (s : State) (t : TrackId) (h : P s) : P (s.gateTrack t) := by
    rcases gateTrack_cases s t with ⟨-, he⟩ | ⟨-, he⟩ <;> rw [he]
    · exact htrig s _ h
    · exact h
  refine List.foldlRecOn l _ hs fun s h t _ => ?_
  rcases tickTrack_cases sc s t with ⟨-, he⟩ | ⟨-, ⟨-, he⟩ | ⟨-, he⟩⟩ <;> rw [he]
  · exact h
  · exact hgate _ t (hadv s t h)
  · exact hadv _ t (hgate s t h)

theorem foldl_rewind_only (l : List TrackId) (s : State) :
    TracksVoicesRecordsOnly s (l.foldl State.rewind s) :=
  List.foldlRecOn l _ (.refl s) fun _ h _ _ => h.trans ⟨rfl, rfl, rfl, rfl, rfl, rfl, rfl⟩

theorem foldl_rewind_voices (l : List TrackId) (s : State) :
    (l.foldl State.rewind s).voices = s.voices :=
  List.foldlRecOn l (motive := fun t : State => t.voices = s.voices) _ rfl fun _ h _ _ => h

theorem startSequence_params (s : State) : s.startSequence.params = s.params := by
  rw [State.startSequence, tick_params, (foldl_rewind_only _ _).params]

theorem startSequence_inputs (s : State) : s.startSequence.inputs = s.inputs := by
  rw [State.startSequence, tick_inputs, (foldl_rewind_only _ _).inputs]

theorem startSequence_mode (s : State) : s.startSequence.tp.mode = s.tp.mode := by
  rw [State.startSequence, tick_tp, (foldl_rewind_only _ _).tp]

end Sys2Proof.Machine
end

section
/-! PROOFS. What no event changes but the one that is meant to (10_state.md R33, R43, R51): the parameters and
the queue, the transport's mode, and whether a voice is enabled. -/

namespace Sys2Proof.Machine

/-! ## Parameters and queue -/

theorem Effect.params_inputs {x : Input} {s t : State} (h : Effect x s t) :
    t.params = s.params ∧ t.inputs = s.inputs := by
  cases h
  case pulseTick => exact ⟨tick_params _, tick_inputs _⟩
  case start => exact ⟨startSequence_params _, startSequence_inputs _⟩
  case strobeTick => exact ⟨tick_params _, tick_inputs _⟩
  case render => exact ⟨(render_only s).1.params, (render_only s).1.inputs⟩
  all_goals exact ⟨rfl, rfl⟩

/-- Settles O8: no effect touches either field, and only the step itself takes an event. -/
theorem stepKeepsParametersAndTakesOneEvent : Obligations.StepKeepsParametersAndTakesOneEvent := by
  intro s t h
  rcases effect_of_step h with ⟨hnil, rfl⟩ | ⟨x, rest, hcons, heffect⟩
  · exact ⟨rfl, by rw [State.idle_inputs, hnil, List.tail_nil]⟩
  · rw [hcons]
    exact heffect.params_inputs

/-! ## The transport's mode -/

theorem Effect.mode_eq {x : Input} {s t : State} (h : Effect x s t) (hstart : carriesStart x = false)
    (hreset : x ≠ .reset) : t.tp.mode = s.tp.mode := by
  cases h
  case start hx => simp [hstart] at hx
  case reset hx => exact absurd hx hreset
  case pulseTick => rw [tick_tp]
  case strobeTick => rw [tick_tp]
  case render => rw [(render_only s).1.tp]
  all_goals rfl

theorem execStart_mode {s t : State} (h : execStart s = .next t) : t.tp.mode = .external := by
  obtain rfl := Host.Outcome.next.inj h
  exact startSequence_mode _

theorem applyReset_mode (s : State) : s.applyReset.tp.mode = .internal := rfl

/-- Settles O33: of the effects only START and the reset write the mode. -/
theorem modeChangesOnlyByStartAndReset : Obligations.ModeChangesOnlyByStartAndReset := by
  intro x s t h
  have hstart (hx : carriesStart x = true) : t.tp.mode = .external :=
    execStart_mode (perform_of_carriesStart hx s ▸ h)
  have hreset (hx : x = .reset) : t.tp.mode = .internal := by
    subst hx
    cases h
    exact applyReset_mode s
  refine ⟨fun hmode hx => ?_, fun hmode hx => ?_, hstart, hreset⟩
  · by_cases hr : x = .reset
    · exact hreset hr
    · exact ((effect_of_perform h).mode_eq hx hr).trans hmode
  · by_cases hc : carriesStart x = true
    · exact hstart hc
    · exact ((effect_of_perform h).mode_eq (eq_false_of_ne_true hc) hx).trans hmode

/-! ## Enabled voices -/

@[simp] theorem triggerVoice_enabled (vc : Voice) (w : Sample) :
    (triggerVoice vc w).1.enabled = vc.enabled := by
  unfold triggerVoice
  split
  · split <;> rfl
  · rfl

@[simp] theorem decayStep_enabled (floor : F32) (vc : Voice) :
    (decayStep floor vc).1.enabled = vc.enabled := by
  unfold decayStep
  split
  · split <;> rfl
  · rfl

@[simp] theorem decayStep_isPlaying (floor : F32) (vc : Voice) :
    (decayStep floor vc).1.isPlaying = vc.isPlaying := by
  unfold decayStep
  split
  · split <;> rfl
  · rfl

@[simp] theorem playStep_enabled (vc : Voice) (acc : F32) (w : Sample) :
    (playStep vc acc w).1.enabled = vc.enabled := by
  unfold playStep
  dsimp only
  split <;> rfl

@[simp] theorem voiceSample_enabled (floor : F32) (vc : Voice) (w : Sample) :
    (voiceSample floor vc w).1.enabled = vc.enabled := by
  unfold voiceSample
  dsimp only
  split
  · split
    · rw [playStep_enabled, decayStep_enabled]
    · rw [decayStep_enabled]
  · rfl

theorem setVoice_enabled {s : State} {u : VoiceId} {vc : Voice} (h : vc.enabled = (s.voice u).enabled)
    (v : VoiceId) : ((s.setVoice u vc).voice v).enabled = (s.voice v).enabled := by
  rw [State.voice_setVoice]
  split
  · next hv => rw [h, hv]
  · rfl

theorem trigger_enabled (s : State) (u v : VoiceId) :
    ((s.trigger u).voice v).enabled = (s.voice v).enabled := by
  rw [State.trigger, State.voice_emit]
  exact setVoice_enabled (triggerVoice_enabled _ _) v

theorem tick_enabled (s : State) (v : VoiceId) : (s.tick.voice v).enabled = (s.voice v).enabled :=
  foldl_tickTrack_induction (P := fun t => (t.voice v).enabled = (s.voice v).enabled)
    (fun _ _ h => h) (fun t u h => (trigger_enabled t u v).trans h) _ _ rfl

theorem startSequence_enabled (s : State) (v : VoiceId) :
    (s.startSequence.voice v).enabled = (s.voice v).enabled := by
  rw [State.startSequence, tick_enabled, State.voice, foldl_rewind_voices]
  rfl

theorem render_enabled (s : State) (v : VoiceId) :
    (s.render.voice v).enabled = (s.voice v).enabled := by
  rw [State.render, State.voice_emit]
  refine List.foldlRecOn voiceIds _ (motive := fun m : State × Mix =>
    (m.1.voice v).enabled = (s.voice v).enabled) rfl fun m h u _ => ?_
  rw [renderVoice_state]
  exact (setVoice_enabled (voiceSample_enabled _ _ _) v).trans h

/-- An effect leaves a voice's `enabled` as it is, clears it by the reset, or sets it by a VCTRL write. -/
theorem Effect.enabled_cases {x : Input} {s t : State} (h : Effect x s t) (v : VoiceId) :
    (t.voice v).enabled = (s.voice v).enabled ∨
    (x = .reset ∧ (t.voice v).enabled = false) ∨
    (1 ≤ (s.voice v).length.toNat ∧ ∃ d, x = .busW (voiceRegAddr v 0) d ∧ d.getLsbD 0 = true) := by
  cases h
  case enable u d hx hd hoff hlen =>
    by_cases hv : v = u
    · subst hv
      exact .inr (.inr ⟨hlen, d, hx, hd⟩)
    · exact .inl (by rw [State.voice_setVoice_other _ _ _ _ hv])
  case reset hx => exact .inr (.inl ⟨hx, by rw [State.applyReset, resetState_voice]; rfl⟩)
  case trigger u => exact .inl (trigger_enabled s u v)
  case pulseTick => exact .inl (tick_enabled _ v)
  case start => exact .inl (startSequence_enabled _ v)
  case strobeTick => exact .inl (tick_enabled _ v)
  case render => exact .inl (render_enabled s v)
  case setLength => exact .inl (setVoice_enabled (by rfl) v)
  case setGain => exact .inl (setVoice_enabled (by rfl) v)
  case setPan => exact .inl (setVoice_enabled (by rfl) v)
  all_goals exact .inl rfl

theorem voiceRegAddr_vctrl (v : VoiceId) : voiceRegAddr v 0 = BitVec.ofNat 24 (0x100 + 8 * v.val) := by
  revert v; decide

/-- Settles O42: of the three cases of `Effect.enabled_cases` only the VCTRL write turns false to true. -/
theorem voiceIsEnabledOnlyByVctrl : Obligations.VoiceIsEnabledOnlyByVctrl := by
  intro x s t v hoff h hon
  rcases (effect_of_perform h).enabled_cases v with hkeep | ⟨-, hcleared⟩ | ⟨hlen, d, hx, hd⟩
  · simp [hkeep, hoff] at hon
  · simp [hcleared] at hon
  · exact ⟨hlen, d, voiceRegAddr_vctrl v ▸ hx, hd⟩

end Sys2Proof.Machine
end

section
/-! PROOFS. The legal states (10_state.md R31, R42, R46, R47): one rule per operation on the state says what
the operation needs to keep a legal state legal, and every effect of an event meets its rule. -/

namespace Sys2Proof.Machine

/-! ## Tracks -/

theorem TrackInRange.loopAndDivision {k : Track} (h : TrackInRange k) : LoopAndDivisionInRange k :=
  ⟨h.length_pos, h.length_le, h.division_le⟩

/-- Clamp-recompute makes a track legal whose loop length and division are in range (41_sequencer.md R110). -/
theorem legalTrack_clampTrack {base : EuclidBase} {k : Track} (hbase : legalBase base = true)
    (h : LoopAndDivisionInRange k) : LegalTrack base (clampTrack base k) := by
  obtain ⟨hpos, hle, hdiv⟩ := h
  have hbelow (n : Nat) : (clampStep n k.loopLength).toNat ≤ k.loopLength.toNat - 1 := clampStep_le n _ hle
  have hlt (n : Nat) : (clampStep n k.loopLength).toNat < k.loopLength.toNat := by
    have := hbelow n
    omega
  exact
    { in_range := ⟨hpos, hle, hbelow _, hbelow _, hbelow _, hdiv⟩
      mask_fresh := rfl
      mask_count := popcount_generate hbase hle (hlt _) (hlt _) }

/-- The position and the hold stand in no relation to the mask. -/
theorem LegalTrack.withStepAndHold {base : EuclidBase} {k : Track} (h : LegalTrack base k) {a : BitVec 4}
    (ha : a.toNat ≤ k.loopLength.toNat - 1) (hold : Bool) :
    LegalTrack base { k with activeStep := a, manualHold := hold } :=
  { in_range := { h.in_range with step_le := ha }, mask_fresh := h.mask_fresh, mask_count := h.mask_count }

theorem LegalTrack.advanceTrack {base : EuclidBase} {k : Track} (h : LegalTrack base k) :
    LegalTrack base (advanceTrack k) := by
  refine h.withStepAndHold ?_ k.manualHold
  have hstep := h.in_range.step_le
  have hpos := h.in_range.length_pos
  split
  · exact Nat.zero_le _
  · rw [BitVec.toNat_ofNat]
    exact (Nat.mod_le _ _).trans (by omega)

theorem legalTrack_trackReset (base : EuclidBase) : LegalTrack base trackReset where
  in_range := by constructor <;> decide
  mask_fresh := by rw [generate_of_lt base (by decide) (by decide) (by decide)]; rfl
  mask_count := by decide

/-! ## Voices -/

theorem legalVoice_voiceReset (p : Params) : LegalVoice p voiceReset where
  disabled_silent := fun _ => ⟨rfl, rfl, rfl, rfl⟩
  idle_at_start := fun _ => rfl
  enabled_loaded := by decide
  length_le := Nat.zero_le _
  gain_range := by decide
  pan_le := by decide

theorem LegalVoice.triggerVoice {p : Params} {vc : Voice} (h : LegalVoice p vc) (w : Sample) :
    LegalVoice p (triggerVoice vc w).1 := by
  obtain ⟨hsilent, hidle, hloaded, hlen, hgain, hpan⟩ := h
  unfold Machine.triggerVoice
  split
  · next hon =>
    obtain ⟨hpos, hlt⟩ := hloaded hon
    have hnot : vc.enabled ≠ false := by simp [hon]
    split
    · exact ⟨fun hoff => absurd hoff hnot, fun _ => rfl, fun _ => ⟨hpos, hpos⟩, hlen, hgain, hpan⟩
    · exact ⟨fun hoff => absurd hoff hnot, (nomatch ·), hloaded, hlen, hgain, hpan⟩
  · exact ⟨hsilent, hidle, hloaded, hlen, hgain, hpan⟩

/-- An enabled voice may have any tail. -/
theorem LegalVoice.withTail {p : Params} {vc : Voice} (h : LegalVoice p vc) (hon : vc.enabled = true)
    (d : F32) (active : Bool) : LegalVoice p { vc with decayAmplitude := d, decayActive := active } :=
  { h with disabled_silent := fun hoff => absurd hoff (by simp [hon]) }

theorem LegalVoice.decayStep {p : Params} {vc : Voice} (h : LegalVoice p vc) (hon : vc.enabled = true)
    (floor : F32) : LegalVoice p (decayStep floor vc).1 := by
  unfold Machine.decayStep
  split
  · split
    · exact h.withTail hon _ _
    · exact h.withTail hon _ _
  · exact h

/-- The position stays below the length: at the last sample it goes back to 0. -/
theorem LegalVoice.playStep {p : Params} {vc : Voice} (h : LegalVoice p vc)
    (hon : vc.enabled = true) (hplay : vc.isPlaying = true) (acc : F32) (w : Sample) :
    LegalVoice p (playStep vc acc w).1 := by
  obtain ⟨-, -, hloaded, hlen, hgain, hpan⟩ := h
  obtain ⟨hpos, hlt⟩ := hloaded hon
  have hnot : vc.enabled ≠ false := by simp [hon]
  unfold Machine.playStep
  dsimp only
  split
  · exact ⟨fun hoff => absurd hoff hnot, fun _ => rfl, fun _ => ⟨hpos, hpos⟩, hlen, hgain, hpan⟩
  · next hnext =>
    have hbelow : (BitVec.ofNat 20 (vc.playbackPosition.toNat + 1)).toNat < vc.length.toNat := by
      rw [BitVec.toNat_ofNat]
      exact lt_of_le_of_lt (Nat.mod_le _ _) (by omega)
    exact ⟨fun hoff => absurd hoff hnot, fun hidle => absurd hidle (by simp [hplay]),
      fun _ => ⟨hpos, hbelow⟩, hlen, hgain, hpan⟩

theorem LegalVoice.voiceSample {p : Params} {vc : Voice} (h : LegalVoice p vc) (floor : F32)
    (w : Sample) : LegalVoice p (voiceSample floor vc w).1 := by
  unfold Machine.voiceSample
  split
  · next hon =>
    have hdecayed := h.decayStep hon floor
    have hon' : (Machine.decayStep floor vc).1.enabled = true := by rw [decayStep_enabled, hon]
    dsimp only
    split
    · next hplay => exact hdecayed.playStep hon' (by rw [decayStep_isPlaying, hplay]) _ w
    · exact hdecayed
  · exact h

theorem LegalVoice.enable {p : Params} {vc : Voice} (h : LegalVoice p vc) (hoff : vc.enabled = false)
    (hlen : 1 ≤ vc.length.toNat) : LegalVoice p { vc with enabled := true } := by
  obtain ⟨-, -, hpos, -⟩ := h.disabled_silent hoff
  exact { h with
    disabled_silent := fun hoff' => nomatch hoff'
    enabled_loaded := fun _ => ⟨hlen, by rw [hpos]; exact hlen⟩ }

theorem LegalVoice.setLength {p : Params} {vc : Voice} (h : LegalVoice p vc)
    (hmax : p.maxSamples ≤ 2 ^ 20) (hoff : vc.enabled = false) (d : Word) :
    LegalVoice p { vc with length := clampVlen p.maxSamples d } :=
  { h with
    enabled_loaded := fun hon => absurd hon (by simp [hoff])
    length_le := by rw [clampVlen_toNat _ _ hmax]; exact Nat.min_le_right _ _ }

/-- The bit pattern of a positive number is its place in the order of the numbers. -/
theorem f32key_eq_toNat_of_pos {g : F32} (h : 0 < f32key g) : f32key g = g.toNat := by
  have hsign : f32sign g = decide (g.toNat / 2 ^ 31 % 2 = 1) := Nat.testBit_eq_decide_div_mod_eq
  rw [f32key, hsign, f32mag] at h ⊢
  have hg := g.isLt
  simp only [decide_eq_true_eq] at h ⊢
  split at h
  · omega
  · next hbit =>
    rw [if_neg hbit]
    omega

theorem clampGain_le (g : F32) : (clampGain g).toNat ≤ 0x3F800000 := by
  have hzero : f32key f32zero = 0 := by decide
  have hone : f32key f32one = 0x3F800000 := by decide
  rw [clampGain, hzero, hone]
  split
  · decide
  · next hpos =>
    rw [not_or, not_le] at hpos
    have hkey := f32key_eq_toNat_of_pos hpos.2
    split
    · decide
    · omega

theorem LegalVoice.setGain {p : Params} {vc : Voice} (h : LegalVoice p vc) (d : Word) :
    LegalVoice p { vc with gain := clampGain d } :=
  { h with gain_range := clampGain_le d }

theorem LegalVoice.setPan {p : Params} {vc : Voice} (h : LegalVoice p vc) (d : Word) :
    LegalVoice p { vc with panIndex := clampPan d } :=
  { h with pan_le := by rw [clampPan_toNat, panMax_eq]; exact Nat.min_le_right _ _ }

/-! ## Transport and sample memory -/

theorem legalTransport_reset (bpm : BitVec 16) : LegalTransport (transportReset bpm) where
  step_pos := Nat.le_refl 1
  step_le := show 1 ≤ 16 by decide
  pulse_le := show 0 < 24 by decide
  running_external := (nomatch ·)

theorem LegalTransport.nextStep {tp : Transport} (h : LegalTransport tp) :
    LegalTransport { tp with stepCounter := nextStepCounter tp.stepCounter } := by
  have hpos := h.step_pos
  have hle := h.step_le
  rw [stepCycle_eq] at hle
  have hnext : 1 ≤ (nextStepCounter tp.stepCounter).toNat ∧
      (nextStepCounter tp.stepCounter).toNat ≤ 16 := by
    unfold nextStepCounter
    rw [stepCycle_eq]
    split
    · decide
    · bv_omega
  exact { h with step_pos := hnext.1, step_le := hnext.2 }

theorem LegalTransport.nextPulse {tp : Transport} (h : LegalTransport tp) :
    LegalTransport { tp with pulseCounter := nextPulse tp.pulseCounter } := by
  have hpulse : (Machine.nextPulse tp.pulseCounter).toNat < ppqn := by
    rw [Machine.nextPulse, ppqn_eq, BitVec.toNat_ofNat]
    omega
  exact { h with pulse_le := hpulse }

theorem LegalTransport.stop {tp : Transport} (h : LegalTransport tp) :
    LegalTransport { tp with running := false, pulseCounter := 0 } :=
  { h with pulse_le := show 0 < 24 by decide, running_external := (nomatch ·) }

theorem LegalTransport.start {tp : Transport} (h : LegalTransport tp) :
    LegalTransport { tp with mode := .external, running := true, stepCounter := 1 } :=
  { h with
    step_pos := Nat.le_refl 1
    step_le := show 1 ≤ 16 by decide
    running_external := fun _ => rfl }

theorem LegalMem.store {n : Nat} {m : List Host.Cell} (h : LegalMem n m) {v : VoiceId} {i : BitVec 20}
    (hi : i.toNat < n) {a : Nat} (ha : a = sampleByteAddr v i ∨ a = sampleByteAddr v i + 1) (b : Byte) :
    LegalMem n (memWrite m a b) where
  canonical := memWf_memWrite a b h.canonical
  in_windows := by
    intro c hc
    rcases mem_memWrite hc with rfl | hc
    · exact ⟨v, i, hi, ha⟩
    · exact h.in_windows c hc

theorem legalMem_nil (n : Nat) : LegalMem n [] :=
  ⟨rfl, fun _ h => absurd h List.not_mem_nil⟩

/-! ## States -/

theorem legal_resetState {p : Params} (hp : LegalParams p) (epoch : Nat) (xs : List Input) :
    Legal (resetState p epoch xs) where
  params := hp
  tracks := fun t => by rw [resetState_track]; exact legalTrack_trackReset _
  voices := fun v => by rw [resetState_voice]; exact legalVoice_voiceReset _
  transport := legalTransport_reset _
  memory := legalMem_nil _

/-- The queue, the time base, the records, the read data and the count of resets are free. -/
theorem Legal.congr {s t : State} (h : Legal s) (hp : t.params = s.params) (ht : t.tracks = s.tracks)
    (hv : t.voices = s.voices) (htp : t.tp = s.tp) (hm : t.mem = s.mem) : Legal t where
  params := hp ▸ h.params
  tracks := fun k => by simp only [State.track, hp, ht]; exact h.tracks k
  voices := fun v => by simp only [State.voice, hp, hv]; exact h.voices v
  transport := htp ▸ h.transport
  memory := by rw [hp, hm]; exact h.memory

theorem Legal.emit {s : State} (h : Legal s) (r : OutRecord) : Legal (s.emit r) :=
  h.congr (by simp) (by simp) (by simp) (by simp) (by simp)

theorem Legal.setTransport {s : State} (h : Legal s) {tp : Transport} (htp : LegalTransport tp) :
    Legal { s with tp := tp } :=
  { h with transport := htp }

theorem Legal.setTrack {s : State} (h : Legal s) {k : Track} (hk : LegalTrack s.params.euclidBase k)
    (t : TrackId) : Legal (s.setTrack t k) :=
  { h with
    tracks := fun u => by
      rw [State.track_setTrack]
      split
      · exact hk
      · exact h.tracks u }

theorem Legal.setVoice {s : State} (h : Legal s) {vc : Voice} (hvc : LegalVoice s.params vc)
    (v : VoiceId) : Legal (s.setVoice v vc) :=
  { h with
    voices := fun u => by
      rw [State.voice_setVoice]
      split
      · exact hvc
      · exact h.voices u }

theorem Legal.setSample {s : State} (h : Legal s) (v : VoiceId) {i : BitVec 20}
    (hi : i.toNat < s.params.maxSamples) (w : Sample) : Legal (s.setSample v i w) :=
  { h with memory := (h.memory.store hi (.inl rfl) _).store hi (.inr rfl) _ }

theorem Legal.editTrack {s : State} (h : Legal s) (t : TrackId) {f : Track → Track}
    (hf : ∀ k, LoopAndDivisionInRange k → LoopAndDivisionInRange (f k)) : Legal (s.editTrack t f) :=
  h.setTrack (legalTrack_clampTrack h.params.base_legal (hf _ (h.tracks t).in_range.loopAndDivision)) t

theorem Legal.trigger {s : State} (h : Legal s) (v : VoiceId) : Legal (s.trigger v) := by
  rw [State.trigger]
  exact (h.setVoice ((h.voices v).triggerVoice _) v).emit _

theorem Legal.advance {s : State} (h : Legal s) (t : TrackId) : Legal (s.advance t) :=
  h.setTrack (h.tracks t).advanceTrack t

theorem Legal.rewind {s : State} (h : Legal s) (t : TrackId) : Legal (s.rewind t) :=
  h.setTrack ((h.tracks t).withStepAndHold (a := 0) (Nat.zero_le _) _) t

theorem Legal.tick {s : State} (h : Legal s) : Legal s.tick := by
  have hturns := foldl_tickTrack_induction (fun _ t h => h.advance t) (fun _ v h => h.trigger v)
    s.tp.stepCounter trackIds (h.emit (.tick s.tp.stepCounter))
  have htp := (foldl_tickTrack_only s.tp.stepCounter trackIds (s.emit (.tick s.tp.stepCounter))).tp
  refine hturns.setTransport ?_
  rw [htp, State.emit_tp]
  exact h.transport.nextStep

/-- `StartSequence` as START runs it: it is the transport's `mode` and `running` that START sets first. -/
theorem Legal.start {s : State} (h : Legal s) :
    Legal (State.startSequence { s with tp := { s.tp with mode := .external, running := true } }) := by
  have hrewound := List.foldlRecOn trackIds State.rewind (motive := Legal)
    (h.setTransport h.transport.start) fun _ h t _ => h.rewind t
  exact hrewound.tick

theorem Legal.renderVoice {m : State × Mix} (h : Legal m.1) (v : VoiceId) :
    Legal (State.renderVoice m v).1 := by
  rw [renderVoice_state]
  exact h.setVoice ((h.voices v).voiceSample _ _) v

theorem Legal.render {s : State} (h : Legal s) : Legal s.render := by
  have hturns := List.foldlRecOn voiceIds State.renderVoice (motive := fun m => Legal m.1)
    (b := (s, { l := f32zero, r := f32zero })) h fun _ hm v _ => hm.renderVoice v
  rw [State.render]
  exact hturns.emit _

/-! ## Every event -/

theorem Effect.legal {x : Input} {s t : State} (he : Effect x s t) (h : Legal s) : Legal t := by
  cases he with
  | hold => exact h
  | answer d => exact h.emit _
  | editTrack k f hf => exact h.editTrack k hf
  | setHold k hold => exact h.setTrack ((h.tracks k).withStepAndHold (h.tracks k).in_range.step_le hold) k
  | trigger v => exact h.trigger v
  | pulse _ => exact h.setTransport h.transport.nextPulse
  | pulseTick _ => exact (h.setTransport h.transport.nextPulse).tick
  | start _ => exact h.start
  | stop => exact h.setTransport h.transport.stop
  | strobe => exact h.congr rfl rfl rfl rfl rfl
  | strobeTick _ => exact Legal.tick (h.congr rfl rfl rfl rfl rfl)
  | setBpm b => exact h.setTransport { h.transport with }
  | enable v d _ _ hoff hlen => exact h.setVoice ((h.voices v).enable hoff hlen) v
  | setLength v d hoff => exact h.setVoice ((h.voices v).setLength h.params.samples_le hoff d) v
  | setGain v d => exact h.setVoice ((h.voices v).setGain d) v
  | setPan v d => exact h.setVoice ((h.voices v).setPan d) v
  | setSample v i w hi _ => exact h.setSample v hi w
  | render => exact h.render
  | reset _ => exact legal_resetState h.params _ _

/-- Settles O59: the idle step changes no field that `Legal` speaks of, and every effect keeps `Legal`. -/
theorem stepKeepsLegal : Obligations.StepKeepsLegal := by
  intro s t h hstep
  rcases effect_of_step hstep with ⟨-, rfl⟩ | ⟨x, rest, -, heffect⟩
  · exact h.congr rfl rfl rfl rfl rfl
  · exact heffect.legal (h.congr rfl rfl rfl rfl rfl)

/-! ## Reset -/

theorem decayFloorFree_toNat :
    decayFloorFree.toNat = 0x00800000 + Config.decayFloorChoice % 0x3F000000 := by
  rw [decayFloorFree, BitVec.toNat_ofNat]
  omega

theorem legalParams_default : LegalParams defaultParams where
  floor_normal := by simp only [defaultParams, decayFloorFree_toNat]; omega
  floor_below_one := by simp only [defaultParams, decayFloorFree_toNat]; omega
  frame_pos := Nat.succ_pos _
  samples_pos := by decide
  samples_le := by decide
  base_legal := by decide +kernel
  panL_le := by decide
  panR_le := by decide
  hard_left := by decide
  hard_right := by decide

/-- Settles O58: the defaults of 00_scope.md R7 are legal, whatever the free values are, and all tails are
+0.0. -/
theorem resetIsLegal : Obligations.ResetIsLegal := by
  refine ⟨legal_resetState legalParams_default 0 [], fun v => ?_⟩
  rw [State.reset, resetState_voice]
  decide

/-- Nothing is listed after a reset, so every byte reads as the free value of its place. -/
theorem byteAt_resetState (p : Params) (epoch : Nat) (xs : List Input) (a : Nat) :
    (resetState p epoch xs).byteAt a = Config.unwrittenByte epoch a := rfl

/-- Settles O57: power-up and the reset input leave a `resetState`. -/
theorem resetRestoresEveryField : Obligations.ResetRestoresEveryField := by
  refine ⟨⟨resetState_track _ _ _, resetState_voice _ _ _, rfl, rfl, rfl, rfl, byteAt_resetState _ _ _⟩,
    fun s => ⟨s.applyReset, rfl, ⟨resetState_track _ _ _, resetState_voice _ _ _, rfl, rfl, rfl, rfl,
      byteAt_resetState _ _ _⟩, rfl, rfl, rfl⟩⟩

end Sys2Proof.Machine
end

section
/-! PROOFS. The register words (20_memory.md R60 to R64): each word that a row packs out of fields is the sum
of those fields, each times the weight of its lowest bit. A word's proof is one computation with
`toNat_append_eq_add`; the flags and enumerations enter as the values of their bits. -/

namespace Sys2Proof.Machine

/-! ## Packed words -/

/-- In a packed word the upper part weighs `2 ^ n`, where `n` is the width of the lower part. -/
theorem toNat_append_eq_add {m n : Nat} (x : BitVec m) (y : BitVec n) :
    (x ++ y).toNat = 2 ^ n * x.toNat + y.toNat := by
  rw [BitVec.toNat_append, ← Nat.shiftLeft_add_eq_or_of_lt y.isLt, Nat.shiftLeft_eq, Nat.mul_comm]

theorem eq_ofNat_of_toNat_eq {n k : Nat} {x : BitVec n} (h : x.toNat = k) : x = BitVec.ofNat n k := by
  rw [← h, BitVec.ofNat_toNat, BitVec.setWidth_eq]

/-- A field alone at the foot of a word, the bits above it zero. -/
theorem zero_append_eq_ofNat {m n : Nat} (x : BitVec n) : 0#m ++ x = BitVec.ofNat (m + n) x.toNat := by
  apply eq_ofNat_of_toNat_eq
  rw [toNat_append_eq_add, BitVec.toNat_ofNat, Nat.zero_mod, Nat.mul_zero, Nat.zero_add]

/-! ## Flags and enumerations as bits -/

theorem ite_weight_eq_mul_toNat (b : Bool) (weight : Nat) :
    (if b = true then weight else 0) = weight * b.toNat := by
  cases b <;> simp

theorem clockModeBit_toNat (m : ClockMode) : (clockModeBit m).toNat = if m = .external then 1 else 0 := by
  cases m <;> rfl

theorem tickOrderBit_weight (o : TickOrder) (weight : Nat) :
    (if o = .testThenAdvance then weight else 0) = weight * (tickOrderBit o).toNat := by
  cases o <;> simp [tickOrderBit]

theorem clockGateBit_weight (g : ClockGate) (weight : Nat) :
    (if g = .notRunning then weight else 0) = weight * (clockGateBit g).toNat := by
  cases g <;> simp [clockGateBit]

/-! ## The words -/

theorem tstatusWord_eq (tp : Transport) :
    tstatusWord tp = BitVec.ofNat 32
      ((if tp.mode = .external then 1 else 0) + (if tp.running then 2 else 0) +
        2 ^ 8 * tp.stepCounter.toNat + 2 ^ 16 * tp.pulseCounter.toNat) := by
  apply eq_ofNat_of_toNat_eq
  simp only [tstatusWord, toNat_append_eq_add, BitVec.toNat_ofBool, BitVec.toNat_ofNat, clockModeBit_toNat,
    ite_weight_eq_mul_toNat]
  omega

theorem configWord_eq (p : Params) :
    configWord p = BitVec.ofNat 32
      (4 + 2 ^ 4 * 8 + 2 ^ 8 * 16 + (if p.tickOrder = .testThenAdvance then 2 ^ 13 else 0) +
        (if p.clockGate = .notRunning then 2 ^ 14 else 0)) := by
  apply eq_ofNat_of_toNat_eq
  simp only [configWord, toNat_append_eq_add, BitVec.toNat_ofBool, BitVec.toNat_ofNat, maxSteps_eq, numTracks,
    numVoices, tickOrderBit_weight, clockGateBit_weight]
  omega

/-- `MAX_SAMPLES` fits the 21 bits of MAXSMP when it is allowed (00_scope.md R7). -/
theorem maxsmpWord_eq {p : Params} (h : p.maxSamples ≤ 2 ^ 20) :
    maxsmpWord p = BitVec.ofNat 32 p.maxSamples := by
  have hfits : (BitVec.ofNat 21 p.maxSamples).toNat = p.maxSamples := by
    rw [BitVec.toNat_ofNat, Nat.mod_eq_of_lt (by omega)]
  rw [maxsmpWord, zero_append_eq_ofNat, hfits]

theorem trkCfgWord_eq (k : Track) :
    trkCfgWord k = BitVec.ofNat 32
      ((editModeBits k.editMode).toNat + 2 ^ 4 * k.clockDivisionIndex.toNat +
        (if k.manualHold then 2 ^ 7 else 0) + 2 ^ 8 * k.loopLength.toNat + 2 ^ 16 * k.pulseCount.toNat +
        2 ^ 20 * k.rotation.toNat + 2 ^ 24 * k.activeStep.toNat) := by
  apply eq_ofNat_of_toNat_eq
  simp only [trkCfgWord, toNat_append_eq_add, BitVec.toNat_ofBool, BitVec.toNat_ofNat,
    ite_weight_eq_mul_toNat]
  omega

theorem vctrlWord_eq (x : Voice) :
    vctrlWord x = BitVec.ofNat 32
      ((if x.enabled then 1 else 0) + (if x.isPlaying then 2 else 0) + (if x.decayActive then 4 else 0)) := by
  apply eq_ofNat_of_toNat_eq
  simp only [vctrlWord, toNat_append_eq_add, BitVec.toNat_ofBool, BitVec.toNat_ofNat,
    ite_weight_eq_mul_toNat]
  omega

end Sys2Proof.Machine
end

section
/-! PROOFS. The bus reads (20_memory.md R60 to R66, 44_host_bus.md R171), and the words and addresses that the
spec writes out. Every read ends in `State.answer`, which is what `Answers` says; what is left of a read
statement is the word answered. -/

namespace Sys2Proof.Machine

/-- A row that ends in `State.answer` reads as the word it answers. -/
theorem readsAs_of_exec {i : Instr} {s : State} {d w : Word} (hexec : exec i s = .next (s.answer d))
    (hw : d = w) : ReadsAs i s w :=
  ⟨s.answer d, hexec, hw ▸ answer_eq s d⟩

/-- A row that ends in `State.answerWindow` reads the window: `sampleWord` is the sign extension. -/
theorem readsWindow_of_exec {v : VoiceId} {i : BitVec 20} {ins : Instr} {s : State}
    (hexec : exec ins s = .next (s.answerWindow v i)) : ReadsWindow v i ins s := by
  rcases answerWindow_cases s v i with ⟨hin, he⟩ | ⟨hout, he⟩ <;> rw [he] at hexec
  · exact ⟨fun _ => readsAs_of_exec hexec rfl, fun h => absurd hin (Nat.not_lt.mpr h)⟩
  · exact ⟨fun h => absurd h (Nat.not_lt.mpr hout), fun _ => readsAs_of_exec hexec rfl⟩

/-- Settles O10: every bus read has an answer, whatever its address decodes to. -/
theorem busReadsHaveNoSideEffect : Obligations.BusReadsHaveNoSideEffect := by
  intro wa s
  obtain ⟨w, hw⟩ : HasAnswer s (perform (.busR wa) s) := decodeBusR_hasAnswer wa s
  exact ⟨w, s.answer w, hw, answer_eq s w⟩

/-- Settles O44. -/
theorem readTransportRegisters : Obligations.ReadTransportRegisters := fun s hmax =>
  ⟨readsAs_of_exec rfl (zero_append_eq_ofNat s.tp.bpm), readsAs_of_exec rfl (tstatusWord_eq s.tp),
    readsAs_of_exec rfl rfl, readsAs_of_exec rfl rfl, readsAs_of_exec rfl (configWord_eq s.params),
    readsAs_of_exec rfl (maxsmpWord_eq hmax)⟩

/-- Settles O45: the three edit modes have the values of 10_state.md R23 in TRKt_CFG. -/
theorem readTrackRegisters : Obligations.ReadTrackRegisters := by
  refine fun s t => ⟨readsAs_of_exec rfl ?_, readsAs_of_exec rfl (zero_append_eq_ofNat _)⟩
  rw [trkCfgWord_eq]
  cases (s.track t).editMode <;> rfl

/-- Settles O46. -/
theorem readVoiceRegisters : Obligations.ReadVoiceRegisters := fun s v =>
  ⟨readsAs_of_exec rfl (vctrlWord_eq (s.voice v)), readsAs_of_exec rfl (zero_append_eq_ofNat _),
    readsAs_of_exec rfl rfl, readsAs_of_exec rfl (zero_append_eq_ofNat _),
    readsAs_of_exec rfl (zero_append_eq_ofNat _), readsAs_of_exec rfl rfl⟩

/-- Settles O47: region `v + 1` is the window of voice `v` (20_memory.md R64). -/
theorem readSampleWindows : Obligations.ReadSampleWindows := fun _ _ =>
  ⟨readsWindow_of_exec rfl, readsWindow_of_exec rfl, readsWindow_of_exec rfl, readsWindow_of_exec rfl,
    readsWindow_of_exec rfl, readsWindow_of_exec rfl, readsWindow_of_exec rfl, readsWindow_of_exec rfl⟩

/-- Settles O5: eight closed evaluations of the decoder. -/
theorem specWordsDecode : Obligations.SpecWordsDecode := by
  unfold Obligations.SpecWordsDecode
  decide

end Sys2Proof.Machine
end

section
/-! PROOFS. The encoding (30_encoding.md R70 to R82, 20_memory.md R59, R60). What the encoder builds has
the fields it was built from, so the decoder's case on them goes the row's way; an address is what its
fields build again, so the way back holds too; a mask that keeps a field's bits keeps the field, so a
command word decodes as the same word with its unused bits clear. -/

namespace Sys2Proof.Machine

/-! ## The fields of the register addresses -/

@[simp] theorem regionOf_voiceRegAddr (v : VoiceId) (k : BitVec 3) : regionOf (voiceRegAddr v k) = 0 :=
  by
  obtain ⟨h, -⟩ := voiceRegAddr_fields v k
  exact h

@[simp] theorem isVoiceReg_voiceRegAddr (v : VoiceId) (k : BitVec 3) :
    isVoiceReg (voiceRegAddr v k) = true := by
  obtain ⟨-, h, -⟩ := voiceRegAddr_fields v k
  exact h

@[simp] theorem isTrackReg_voiceRegAddr (v : VoiceId) (k : BitVec 3) :
    isTrackReg (voiceRegAddr v k) = false := by
  obtain ⟨-, -, h, -⟩ := voiceRegAddr_fields v k
  exact h

@[simp] theorem voiceRegVoice_voiceRegAddr (v : VoiceId) (k : BitVec 3) :
    voiceRegVoice (voiceRegAddr v k) = v := by
  obtain ⟨-, -, -, h, -⟩ := voiceRegAddr_fields v k
  exact h

@[simp] theorem voiceRegIndex_voiceRegAddr (v : VoiceId) (k : BitVec 3) :
    voiceRegIndex (voiceRegAddr v k) = k := by
  obtain ⟨-, -, -, -, h, -⟩ := voiceRegAddr_fields v k
  exact h

/-- The voice blocks lie above the single registers, CMD to MAXSMP. -/
@[simp] theorem voiceRegAddr_ne {wa : WordAddr} (hwa : wa.toNat < 8) (v : VoiceId) (k : BitVec 3) :
    voiceRegAddr v k ≠ wa := by
  obtain ⟨-, -, -, -, -, hlow⟩ := voiceRegAddr_fields v k
  rintro rfl
  omega

@[simp] theorem regionOf_trackRegAddr (t : TrackId) (mask : Bool) :
    regionOf (trackRegAddr t mask) = 0 := by
  obtain ⟨h, -⟩ := trackRegAddr_fields t mask
  exact h

@[simp] theorem isTrackReg_trackRegAddr (t : TrackId) (mask : Bool) :
    isTrackReg (trackRegAddr t mask) = true := by
  obtain ⟨-, h, -⟩ := trackRegAddr_fields t mask
  exact h

@[simp] theorem trackRegTrack_trackRegAddr (t : TrackId) (mask : Bool) :
    trackRegTrack (trackRegAddr t mask) = t := by
  obtain ⟨-, -, h, -⟩ := trackRegAddr_fields t mask
  exact h

@[simp] theorem trackRegMask_trackRegAddr (t : TrackId) (mask : Bool) :
    trackRegMask (trackRegAddr t mask) = mask := by
  obtain ⟨-, -, -, h, -⟩ := trackRegAddr_fields t mask
  exact h

/-- The track registers lie above the single registers, CMD to MAXSMP. -/
@[simp] theorem trackRegAddr_ne {wa : WordAddr} (hwa : wa.toNat < 8) (t : TrackId) (mask : Bool) :
    trackRegAddr t mask ≠ wa := by
  obtain ⟨-, -, -, -, hlow⟩ := trackRegAddr_fields t mask
  rintro rfl
  omega

/-! ## Decoding what the encoder builds -/

theorem wellFormed_xportReserved_iff {c : BitVec 8} :
    (Instr.xportReserved c).wellFormed = true ↔ c ≠ 0xF8 ∧ c ≠ 0xFA ∧ c ≠ 0xFB ∧ c ≠ 0xFC := by
  simp [Instr.wellFormed, assignedXportCodes]

theorem decodeXport8_of_wellFormed {c : BitVec 8} (hwf : (Instr.xportReserved c).wellFormed = true) :
    decodeXport8 c = .xportReserved c := by
  obtain ⟨hclock, hstart, hcont, hstop⟩ := wellFormed_xportReserved_iff.mp hwf
  exact decodeXport8_reserved hclock hstart hcont hstop

/-- Settles O1, row by row: each format's decoder sees the fields that the encoder packed. -/
theorem decodeEncodeRoundTrip : Obligations.DecodeEncodeRoundTrip := by
  intro i hwf
  cases i
  case xportReserved c => exact congrArg Except.ok (decodeXport8_of_wellFormed hwf)
  case edit | setMode | setDiv | setHold | setLength | setPulses | setRotation | trigger =>
    simp [encode, decode, decodeCmd32]
  case wrVctrl | wrVlen | wrVgain | wrVpan => simp [encode, decode, decodeBusW, decodeRegisterWrite]
  case wrSampleV0 | wrSampleV1 | wrSampleV2 | wrSampleV3 | wrSampleV4 | wrSampleV5 | wrSampleV6
      | wrSampleV7 => simp [encode, decode, decodeBusW]
  case rdTrkCfg | rdTrkMask | rdVctrl | rdVlen | rdVgain | rdVpan | rdVpos | rdVdecay =>
    simp [encode, decode, decodeBusR, decodeRegisterRead]
  case rdSampleV0 | rdSampleV1 | rdSampleV2 | rdSampleV3 | rdSampleV4 | rdSampleV5 | rdSampleV6
      | rdSampleV7 => simp [encode, decode, decodeBusR]
  -- No other row packs an operand into a word or an address.
  all_goals rfl

/-! ## Addresses from their fields -/

/-- An address in the track block is the address of its register of its track. -/
theorem trackRegAddr_of_isTrackReg {wa : WordAddr} (h : isTrackReg wa = true) :
    trackRegAddr (trackRegTrack wa) (trackRegMask wa) = wa := by
  have hblock : (0x2#21 : BitVec 21) = wa.extractLsb' 3 21 := (eq_of_beq h).symm
  have hmask : BitVec.ofBool (trackRegMask wa) = wa.extractLsb' 0 1 := by
    ext j hj
    obtain rfl : j = 0 := by omega
    simp [trackRegMask]
  rw [trackRegAddr, trackRegTrack, bitsOfTrack_trackOfBits, hblock, hmask,
    BitVec.extractLsb'_append_extractLsb'_eq_extractLsb' (show 3 = 1 + 2 from rfl),
    BitVec.extractLsb'_append_extractLsb'_eq_extractLsb' (show 1 = 0 + 1 from rfl)]
  exact BitVec.extractLsb'_eq_self

theorem sampleAddr_regionOf_offsetOf (wa : WordAddr) : sampleAddr (regionOf wa) (offsetOf wa) = wa := by
  rw [sampleAddr, regionOf, offsetOf,
    BitVec.extractLsb'_append_extractLsb'_eq_extractLsb' (show 20 = 0 + 20 from rfl)]
  exact BitVec.extractLsb'_eq_self

theorem voiceRegAddr_of_voiceRegIndex_eq {wa : WordAddr} {k : BitVec 3} (h : isVoiceReg wa = true)
    (hk : voiceRegIndex wa = k) : voiceRegAddr (voiceRegVoice wa) k = wa :=
  hk ▸ voiceRegAddr_of_isVoiceReg h

theorem trackRegAddr_of_trackRegMask_eq {wa : WordAddr} {mask : Bool} (h : isTrackReg wa = true)
    (hmask : trackRegMask wa = mask) : trackRegAddr (trackRegTrack wa) mask = wa :=
  hmask ▸ trackRegAddr_of_isTrackReg h

theorem sampleAddr_of_regionOf_eq {wa : WordAddr} {r : BitVec 4} (hr : regionOf wa = r) :
    sampleAddr r (offsetOf wa) = wa := hr ▸ sampleAddr_regionOf_offsetOf wa

/-! ## Encoding what the decoder answers -/

/-- The event `x` is the encoding of the instruction that the decoder answers, if it answers one. -/
def EncodesAnswer (x : Input) (r : Except Unlisted Instr) : Prop :=
  ∀ i, r = .ok i → i.wellFormed = true ∧ encode i = x

theorem encodesAnswer_error (x : Input) (u : Unlisted) : EncodesAnswer x (.error u) := nofun

theorem encodesAnswer_ok {x : Input} {i : Instr} (hwf : i.wellFormed = true) (h : encode i = x) :
    EncodesAnswer x (.ok i) := by
  rintro _ ⟨⟩
  exact ⟨hwf, h⟩

theorem encodesAnswer_busW {i : Instr} {a wa : WordAddr} {d : Word} (hwf : i.wellFormed = true)
    (hi : encode i = .busW a d) (ha : a = wa) : EncodesAnswer (.busW wa d) (.ok i) :=
  encodesAnswer_ok hwf (ha ▸ hi)

theorem encodesAnswer_busR {i : Instr} {a wa : WordAddr} (hwf : i.wellFormed = true)
    (hi : encode i = .busR a) (ha : a = wa) : EncodesAnswer (.busR wa) (.ok i) :=
  encodesAnswer_ok hwf (ha ▸ hi)

theorem decodeRegisterWrite_encodesAnswer (wa : WordAddr) (d : Word) :
    EncodesAnswer (.busW wa d) (decodeRegisterWrite wa d) := by
  unfold decodeRegisterWrite
  split
  · next hwa => exact encodesAnswer_busW rfl rfl hwa.symm
  split
  · next hwa => exact encodesAnswer_busW rfl rfl hwa.symm
  split
  · next hwa => exact encodesAnswer_busW rfl rfl hwa.symm
  split
  · next hvoice =>
    split
    case h_5 => exact encodesAnswer_error _ _
    all_goals next hk => exact encodesAnswer_busW rfl rfl (voiceRegAddr_of_voiceRegIndex_eq hvoice hk)
  · exact encodesAnswer_error _ _

theorem decodeBusW_encodesAnswer (wa : WordAddr) (d : Word) :
    EncodesAnswer (.busW wa d) (decodeBusW wa d) := by
  unfold decodeBusW
  split
  case h_1 => exact decodeRegisterWrite_encodesAnswer wa d
  case h_10 => exact encodesAnswer_error _ _
  all_goals next hr => exact encodesAnswer_busW rfl rfl (sampleAddr_of_regionOf_eq hr)

theorem decodeRegisterRead_encodesAnswer (wa : WordAddr) :
    EncodesAnswer (.busR wa) (decodeRegisterRead wa) := by
  unfold decodeRegisterRead
  split
  · exact encodesAnswer_error _ _
  iterate 6
    split
    · next hwa => exact encodesAnswer_busR rfl rfl hwa.symm
  split
  · next htrack =>
    split
    · next hmask => exact encodesAnswer_busR rfl rfl (trackRegAddr_of_trackRegMask_eq htrack hmask)
    · next hcfg =>
      exact encodesAnswer_busR rfl rfl
        (trackRegAddr_of_trackRegMask_eq htrack (eq_false_of_ne_true hcfg))
  split
  · next hvoice =>
    split
    case h_7 => exact encodesAnswer_error _ _
    all_goals next hk => exact encodesAnswer_busR rfl rfl (voiceRegAddr_of_voiceRegIndex_eq hvoice hk)
  · exact encodesAnswer_error _ _

theorem decodeBusR_encodesAnswer (wa : WordAddr) : EncodesAnswer (.busR wa) (decodeBusR wa) := by
  unfold decodeBusR
  split
  case h_1 => exact decodeRegisterRead_encodesAnswer wa
  case h_10 => exact encodesAnswer_error _ _
  all_goals next hr => exact encodesAnswer_busR rfl rfl (sampleAddr_of_regionOf_eq hr)

/-- A code that is none of the four assigned ones is its own operand (30_encoding.md R79). -/
theorem decodeXport8_encodes (c : BitVec 8) :
    (decodeXport8 c).wellFormed = true ∧ encode (decodeXport8 c) = .xport8 c := by
  unfold decodeXport8
  split
  case h_5 hclock hstart hcont hstop =>
    exact ⟨wellFormed_xportReserved_iff.mpr ⟨hclock, hstart, hcont, hstop⟩, rfl⟩
  all_goals exact ⟨rfl, rfl⟩

/-- Settles O2. -/
theorem busAccessesHaveOneMeaning : Obligations.BusAccessesHaveOneMeaning :=
  ⟨decodeBusW_encodesAnswer, decodeBusR_encodesAnswer,
    fun c => ⟨decodeXport8 c, rfl, decodeXport8_encodes c⟩⟩

/-! ## The unused bits of a command word -/

/-- A mask that holds every bit of a field keeps the field. -/
theorem extractLsb'_and_of_allOnes {d m : Word} {start len : Nat}
    (hm : m.extractLsb' start len = BitVec.allOnes len) :
    (d &&& m).extractLsb' start len = d.extractLsb' start len := by
  rw [BitVec.extractLsb'_and, hm, BitVec.and_allOnes]

theorem cmdTrack_and {d m : Word} (hm : m.extractLsb' 24 2 = BitVec.allOnes 2) :
    cmdTrack (d &&& m) = cmdTrack d := congrArg trackOfBits (extractLsb'_and_of_allOnes hm)

theorem cmdVoice_and {d m : Word} (hm : m.extractLsb' 24 3 = BitVec.allOnes 3) :
    cmdVoice (d &&& m) = cmdVoice d := congrArg voiceOfBits (extractLsb'_and_of_allOnes hm)

theorem cmdImm_and {d m : Word} (hm : m.extractLsb' 0 16 = BitVec.allOnes 16) :
    cmdImm (d &&& m) = cmdImm d := extractLsb'_and_of_allOnes hm

theorem cmdMode_and {d m : Word} (hm : m.extractLsb' 0 2 = BitVec.allOnes 2) :
    cmdMode (d &&& m) = cmdMode d := extractLsb'_and_of_allOnes hm

theorem cmdFlag_and {d m : Word} (hm : m.getLsbD 0 = true) : cmdFlag (d &&& m) = cmdFlag d := by
  rw [cmdFlag, BitVec.getLsbD_and, hm, Bool.and_true, cmdFlag]

/-- Every operation uses the four bits that name it (30_encoding.md R71). -/
theorem cmdOp_and_usedBits (d : Word) (op : BitVec 4) : cmdOp (d &&& usedBits op) = cmdOp d :=
  extractLsb'_and_of_allOnes (by revert op; decide)

/-- The bits that its operation uses decide what a command word decodes to (30_encoding.md R72). -/
theorem decodeCmd32_and_usedBits (d : Word) :
    decodeCmd32 (d &&& usedBits (cmdOp d)) = decodeCmd32 d := by
  unfold decodeCmd32
  rw [cmdOp_and_usedBits]
  generalize cmdOp d = op
  split
  case h_2 | h_5 => rw [cmdTrack_and (by decide), cmdFlag_and (by decide)]
  case h_3 => rw [cmdTrack_and (by decide), cmdMode_and (by decide)]
  case h_4 | h_6 | h_7 | h_8 => rw [cmdTrack_and (by decide), cmdImm_and (by decide)]
  case h_9 => rw [cmdVoice_and (by decide)]
  all_goals rfl

/-! ## The two presentations of a command or code -/

theorem perform_cmd32 (d : Word) (s : State) : perform (.cmd32 d) s = exec (decodeCmd32 d) s := rfl

theorem perform_xport8 (c : BitVec 8) (s : State) : perform (.xport8 c) s = exec (decodeXport8 c) s := rfl

theorem perform_busW_cmd (d : Word) (s : State) :
    perform (.busW 0x000000 d) s = exec (decodeCmd32 d) s :=
  (perform_of_decode_ok (i := .wrCmd d) rfl s).trans (execWrCmd_eq d s)

theorem perform_busW_xport (d : Word) (s : State) :
    perform (.busW 0x000001 d) s = exec (decodeXport8 (d.extractLsb' 0 8)) s :=
  (perform_of_decode_ok (i := .wrXport d) rfl s).trans (execWrXport_eq d s)

/-- Settles O3: both presentations perform what the word decodes to, and that is the same. -/
theorem commandUnusedBitsAreIgnored : Obligations.CommandUnusedBitsAreIgnored := by
  intro d s
  simp only [perform_cmd32, perform_busW_cmd, decodeCmd32_and_usedBits, and_self]

/-- Settles O4: the low byte of a word is its bits 7..0. -/
theorem commandFormatsAreBusWrites : Obligations.CommandFormatsAreBusWrites := by
  intro d s
  have hbyte : BitVec.ofNat 8 d.toNat = d.extractLsb' 0 8 := rfl
  rw [perform_cmd32, perform_busW_cmd, perform_xport8, perform_busW_xport, hbyte]
  exact ⟨rfl, rfl⟩

end Sys2Proof.Machine
end

section
/-! PROOFS. The Rhythm Generator (40_rhythm.md R102 to R109). A gap of a mask around its loop is two set steps
with none set between them (`IsCircularGap`), wherever the loop is entered. Step `i` of the default pattern in
any rotation is set when `(d + i) * p` modulo `s` is below `p`, for a `d` of the rotation: the multiple of `p`
next to reach `s` is then `s div p` steps away or one more. -/

namespace Sys2Proof.Machine

/-! ## Rotation -/

theorem euclidOf_toNat_lt {base : EuclidBase} {s p : Nat} (hbase : legalBase base = true)
    (hs : s ≤ 16) (hp : p ≠ 0) (hps : p < s) : (euclidOf base s p).toNat < 2 ^ s := by
  have hlegal := legalBaseMask_euclidOf hbase hs hp hps
  simp only [legalBaseMask, Bool.and_eq_true, decide_eq_true_eq] at hlegal
  obtain ⟨⟨-, hlt⟩, -⟩ := hlegal
  exact hlt

theorem generate_toNat_lt (base : EuclidBase) {s p r : Nat} (hs : s ≤ 16) (hps : p < s) (hrs : r < s) :
    (generate base s p r).toNat < 2 ^ s := by
  rw [generate_of_lt base hs hps hrs]
  split
  · exact Nat.two_pow_pos s
  · exact rotL_toNat_lt _ _ _

theorem rotL_empty (r s : Nat) : rotL 0 r s = 0 := by simp [rotL]

theorem rotL_zero_steps {m : BitVec 16} {s : Nat} (hm : m.toNat < 2 ^ s) : rotL m 0 s = m := by
  simp [rotL, Nat.shiftRight_eq_div_pow, Nat.div_eq_of_lt hm, Nat.mod_eq_of_lt hm]

theorem getLsbD_rotL_add_mod {m : BitVec 16} {r s i : Nat} (hs : s ≤ 16) (hr : r < s) (hi : i < s)
    (hm : m.toNat < 2 ^ s) : (rotL m r s).getLsbD ((i + r) % s) = m.getLsbD i := by
  have hback : (s - r + (i + r) % s) % s = i := by
    rw [Nat.add_mod_mod, show s - r + (i + r) = i + s by omega, Nat.add_mod_right, Nat.mod_eq_of_lt hi]
  rw [getLsbD_rotL hs hr (Nat.mod_lt _ (by omega)) hm, hback]

theorem legalBase_formula : legalBase .formula = true := legalParams_default.base_legal

/-- Settles O12: the base pattern has `p` set steps, and a rotation keeps their number and stays below `2^s`. -/
theorem generatePopcount : Obligations.GeneratePopcount :=
  ⟨legalBase_formula, fun base _ _ _ hbase _ hs hps hrs =>
    ⟨popcount_generate hbase hs hps hrs, fun _ => getLsbD_of_toNat_lt (generate_toNat_lt base hs hps hrs)⟩⟩

/-- Settles O14: rotation by 0 is the identity below `2^s`, so the unrotated mask is the base pattern. -/
theorem rotationMovesEveryStep : Obligations.RotationMovesEveryStep := by
  refine ⟨fun m r s _ hs hr hm => ⟨fun i hi => getLsbD_rotL_add_mod hs hr hi hm,
    fun i => getLsbD_of_toNat_lt (rotL_toNat_lt m r s)⟩, fun base s p r hbase hpos hs hps hrs => ?_⟩
  rw [generate_of_lt base hs hps hrs, generate_of_lt base hs hps hpos]
  by_cases hp : p = 0
  · rw [if_pos hp, if_pos hp, rotL_empty]
  · rw [if_neg hp, if_neg hp, rotL_zero_steps (euclidOf_toNat_lt hbase hs hp hps)]

/-- Settles O11. -/
theorem generateWithoutPulsesIsEmpty : Obligations.GenerateWithoutPulsesIsEmpty :=
  fun base _ _ hpos hs hr => (generate_of_lt base hs hpos hr).trans (if_pos rfl)

/-- Settles O15: 136 closed evaluations of the formula. -/
theorem defaultPatternTable : Obligations.DefaultPatternTable := by
  unfold Obligations.DefaultPatternTable
  decide

/-! ## Circular gaps -/

/-- `g` steps after the set step `i` of a loop of `s` steps comes the next set step. -/
structure IsCircularGap (m : BitVec 16) (s i g : Nat) : Prop where
  set_here : m.getLsbD (i % s) = true
  set_next : m.getLsbD ((i + g) % s) = true
  pos : 0 < g
  clear_between : ∀ k, 0 < k → k < g → m.getLsbD ((i + k) % s) = false

theorem mem_setSteps {m : BitVec 16} {s i : Nat} : i ∈ setSteps m s ↔ i < s ∧ m.getLsbD i = true := by
  rw [setSteps, List.mem_filter, List.mem_range]

theorem setSteps_rising (m : BitVec 16) (s : Nat) : (setSteps m s).Pairwise (· < ·) :=
  List.pairwise_lt_range.filter _

/-- A gap is the distance between neighbours of the list, or the one from its last step around the loop. -/
theorem mem_gapsFrom {first s g : Nat} {l : List Nat} (hl : l.Pairwise (· < ·))
    (hg : g ∈ gapsFrom first s l) :
    (∃ i ∈ l, ∃ j ∈ l, i < j ∧ g = j - i ∧ ∀ k ∈ l, k ≤ i ∨ j ≤ k) ∨
      ∃ i ∈ l, g = first + s - i ∧ ∀ k ∈ l, k ≤ i := by
  induction l with
  | nil => simp [gapsFrom] at hg
  | cons a rest ih =>
    obtain ⟨ha, hrest⟩ := List.pairwise_cons.1 hl
    cases rest with
    | nil => exact .inr ⟨a, by simp, by simpa [gapsFrom] using hg, by simp⟩
    | cons b rest =>
      rcases List.mem_cons.1 hg with rfl | hg
      · refine .inl ⟨a, by simp, b, by simp, ha b (by simp), rfl, ?_⟩
        have hb := (List.pairwise_cons.1 hrest).1
        simpa using fun k hk => Or.inr (hb k hk).le
      · rcases ih hrest hg with ⟨i, hi, j, hj, hij, hgap, hclear⟩ | ⟨i, hi, hgap, hlast⟩
        · refine .inl ⟨i, .tail _ hi, j, .tail _ hj, hij, hgap, ?_⟩
          exact List.forall_mem_cons.2 ⟨.inl (ha i hi).le, hclear⟩
        · exact .inr ⟨i, .tail _ hi, hgap, List.forall_mem_cons.2 ⟨(ha i hi).le, hlast⟩⟩

theorem headD_mem_and_le_all {l : List Nat} (hl : l.Pairwise (· < ·)) {i : Nat} (hi : i ∈ l) :
    l.headD 0 ∈ l ∧ ∀ k ∈ l, l.headD 0 ≤ k := by
  cases l with
  | nil => cases hi
  | cons a rest =>
    exact ⟨by simp, List.forall_mem_cons.2 ⟨le_rfl, fun k hk => ((List.pairwise_cons.1 hl).1 k hk).le⟩⟩

/-- The gaps that 40_rhythm.md R104 lists are gaps around the loop. -/
theorem isCircularGap_of_mem_maskGaps {m : BitVec 16} {s g : Nat} (hg : g ∈ maskGaps m s) :
    ∃ i, IsCircularGap m s i g := by
  have hrising := setSteps_rising m s
  rcases mem_gapsFrom hrising hg with ⟨i, hi, j, hj, hij, rfl, hclear⟩ | ⟨i, hi, rfl, hlast⟩
  · obtain ⟨his, hbi⟩ := mem_setSteps.1 hi
    obtain ⟨hjs, hbj⟩ := mem_setSteps.1 hj
    refine ⟨i, by rwa [Nat.mod_eq_of_lt his], ?_, by omega, fun k hk hkg => ?_⟩
    · rwa [Nat.add_sub_cancel' hij.le, Nat.mod_eq_of_lt hjs]
    · rw [Nat.mod_eq_of_lt (show i + k < s by omega), Bool.eq_false_iff]
      intro hset
      have := hclear (i + k) (mem_setSteps.2 ⟨by omega, hset⟩)
      omega
  · obtain ⟨hfirst, hleast⟩ := headD_mem_and_le_all hrising hi
    generalize (setSteps m s).headD 0 = f at *
    obtain ⟨his, hbi⟩ := mem_setSteps.1 hi
    obtain ⟨hfs, hbf⟩ := mem_setSteps.1 hfirst
    refine ⟨i, by rwa [Nat.mod_eq_of_lt his], ?_, by omega, fun k hk hkg => ?_⟩
    · rwa [show i + (f + s - i) = f + s by omega, Nat.add_mod_right, Nat.mod_eq_of_lt hfs]
    · rw [Bool.eq_false_iff]
      intro hset
      have hmem := mem_setSteps.2 ⟨Nat.mod_lt _ (by omega), hset⟩
      have hle := hlast _ hmem
      have hge := hleast _ hmem
      by_cases hwrap : i + k < s
      · rw [Nat.mod_eq_of_lt hwrap] at hle
        omega
      · rw [show i + k = i + k - s + s by omega, Nat.add_mod_right,
          Nat.mod_eq_of_lt (show i + k - s < s by omega)] at hge
        omega

/-! ## The default pattern -/

theorem getLsbD_maskOf (f : Nat → Bool) (i : Nat) :
    (maskOf f).getLsbD i = (decide (i < maxSteps) && f i) := by
  rw [maskOf]
  have hle : maxSteps ≤ 16 := le_rfl
  generalize maxSteps = n at hle ⊢
  induction n with
  | zero => simp
  | succ n ih =>
    have hbit : (1#16 <<< n).getLsbD i = decide (i = n) := by
      rw [← BitVec.twoPow_eq, BitVec.getLsbD_twoPow]
      simp [show n < 16 by omega, eq_comm]
    have hlt : i < n + 1 ↔ i < n ∨ i = n := Nat.lt_succ_iff_lt_or_eq
    rw [List.range_succ, List.foldl_append, List.foldl_cons, List.foldl_nil]
    split
    case isTrue hn =>
      rw [BitVec.getLsbD_or, ih (by omega), hbit]
      by_cases hi : i = n <;> simp [hlt, hi, hn]
    case isFalse hn =>
      rw [ih (by omega)]
      by_cases hi : i = n <;> simp [hlt, hi, hn]

theorem getLsbD_euclidFormula {s : Nat} (hs : s ≤ 16) (p : Nat) {i : Nat} (hi : i < s) :
    (euclidFormula s p).getLsbD i = decide (i * p % s < p) := by
  have hmax : i < maxSteps := lt_of_lt_of_le hi hs
  simp only [euclidFormula, getLsbD_maskOf, euclidStep, hi, hmax, true_and, decide_true, Bool.true_and]

theorem getLsbD_generate_formula {s p r i : Nat} (hs : s ≤ 16) (hp : p ≠ 0) (hps : p < s) (hrs : r < s)
    (hi : i < s) : (generate .formula s p r).getLsbD i = decide ((s - r + i) * p % s < p) := by
  have hlt := euclidOf_toNat_lt legalBase_formula hs hp hps
  rw [generate_of_lt _ hs hps hrs, if_neg hp, getLsbD_rotL hs hrs hi hlt]
  exact (getLsbD_euclidFormula hs p (Nat.mod_lt _ (by omega))).trans (by rw [Nat.mod_mul_mod])

/-- The multiples of `p` from `x < p` on pass `s` after `s / p` steps or one more, and land below `p`. -/
theorem landing_step_eq {s p x g : Nat} (hps : p < s) (hx : x < p) (hg : 0 < g)
    (hland : (x + g * p) % s < p) (hbetween : ∀ k, 0 < k → k < g → p ≤ (x + k * p) % s) :
    g = s / p ∨ g = s / p + 1 := by
  have hlo : s / p * p ≤ s := Nat.div_mul_le_self s p
  have hhi : s < s / p * p + p := by
    rw [← Nat.succ_mul]
    exact Nat.lt_mul_of_div_lt (Nat.lt_succ_self _) (by omega)
  have hqpos : 0 < s / p := Nat.div_pos hps.le (by omega)
  generalize s / p = q at *
  have hlands : ∀ k, s ≤ x + k * p → x + k * p < s + p → (x + k * p) % s < p := fun k h1 h2 => by
    rw [Nat.mod_eq_sub_mod h1, Nat.mod_eq_of_lt (by omega)]
    omega
  have hge : q ≤ g := by
    by_contra! hlt
    have hshort : g * p + p ≤ q * p := by
      rw [← Nat.succ_mul]
      exact Nat.mul_le_mul_right p hlt
    have hstep : p ≤ g * p := Nat.le_mul_of_pos_left p hg
    rw [Nat.mod_eq_of_lt (by omega)] at hland
    omega
  have hle : g ≤ q + 1 := by
    by_contra! hlt
    by_cases hreach : s ≤ x + q * p
    · exact absurd (hlands q hreach (by omega)) (hbetween q hqpos (by omega)).not_gt
    · have hnext : (q + 1) * p = q * p + p := Nat.succ_mul q p
      exact absurd (hlands (q + 1) (by omega) (by omega)) (hbetween (q + 1) (by omega) hlt).not_gt
  omega

/-- Settles O13: in the coordinates of the unrotated pattern a gap leads from one landing below `p` to the
next. -/
theorem defaultPatternIsMaximallyEven : Obligations.DefaultPatternIsMaximallyEven := by
  intro s p r hs hp hps hrs g hg
  obtain ⟨i, hgap⟩ := isCircularGap_of_mem_maskGaps hg
  have hbit : ∀ k, (generate .formula s p r).getLsbD ((i + k) % s)
      = decide (((s - r + i) * p % s + k * p) % s < p) := fun k => by
    rw [getLsbD_generate_formula hs (by omega) hps hrs (Nat.mod_lt _ (by omega)), ← Nat.mod_mul_mod,
      Nat.add_mod_mod, Nat.mod_mul_mod, ← Nat.add_assoc, Nat.add_mul, Nat.mod_add_mod]
  have hhere := hgap.set_here
  have hnext := hgap.set_next
  have hclear := hgap.clear_between
  rw [← Nat.add_zero i, hbit] at hhere
  simp only [hbit, Nat.zero_mul, Nat.add_zero, Nat.mod_mod, decide_eq_true_eq, decide_eq_false_iff_not,
    not_lt] at hhere hnext hclear
  exact landing_step_eq hps hhere hgap.pos hnext hclear

end Sys2Proof.Machine
end

section
/-! PROOFS. The track commands (41_sequencer.md R110 to R118, R128) and the events that do nothing (R118,
42_transport.md R134). Every track command but SET_HOLD ends in `State.editTrack`: what it does beyond its own
field is clamp-recompute, which `recomputed_clampTrack` states once. -/

namespace Sys2Proof.Machine

/-! ## Clamp-recompute -/

/-- Clamp-recompute leaves the fields as `Recomputed` says, whatever they were (41_sequencer.md R110). -/
theorem recomputed_clampTrack (base : EuclidBase) (k : Track) :
    Recomputed base k.loopLength.toNat k.pulseCount.toNat k.rotation.toNat k.activeStep.toNat
      (clampTrack base k) := by
  obtain ⟨-, -, -, hlen, hpulses, hrotation, hstep, hmask⟩ := clampTrack_fields base k
  rw [clampStep_field, clampStep_field] at hmask
  exact ⟨by rw [hlen], by rw [hpulses, clampStep_field], by rw [hrotation, clampStep_field],
    by rw [hstep, clampStep_field], hmask⟩

/-- `Recomputed` sees a pulse count and a rotation up to the clamp alone. -/
theorem Recomputed.congr {base : EuclidBase} {len p p' r r' a : Nat} {k : Track}
    (h : Recomputed base len p r a k) (hp : min p (len - 1) = min p' (len - 1))
    (hr : min r (len - 1) = min r' (len - 1)) : Recomputed base len p' r' a k := by
  unfold Recomputed at h ⊢
  rwa [← hp, ← hr]

/-- A clamped step is below the loop length already. -/
theorem clampStep_clampStep (x : BitVec 4) (len : BitVec 5) :
    clampStep (clampStep x.toNat len).toNat len = clampStep x.toNat len := by
  apply BitVec.eq_of_toNat_eq
  rw [clampStep_field, clampStep_field, min_assoc, min_self]

/-- Settles O23: the second clamp finds every field clamped, so it makes the mask of the same numbers. -/
theorem clampRecomputeIsIdempotent : Obligations.ClampRecomputeIsIdempotent := by
  intro base k
  simp only [clampTrack, clampStep_clampStep]

/-! ## The fields the commands store -/

theorem editModeBits_of_editModeOfBits {m : BitVec 2} {mode : EditMode}
    (h : editModeOfBits m = some mode) : editModeBits mode = m := by
  revert h
  unfold editModeOfBits
  split <;> rintro ⟨⟩ <;> rfl

theorem editModeOfBits_eq_none_iff {m : BitVec 2} : editModeOfBits m = none ↔ m = 3 := by
  revert m; decide

theorem execSetMode_of_mode {m : BitVec 2} {mode : EditMode} (h : editModeOfBits m = some mode)
    (t : TrackId) (s : State) :
    execSetMode t m s = .next (s.editTrack t fun k => { k with editMode := mode }) := by
  simp only [execSetMode, h]

theorem execSetMode_of_reserved (t : TrackId) (s : State) : execSetMode t 3 s = .next s := rfl

/-- EDIT keeps the mode that selects its field, and the two fields it never selects. -/
theorem editField_keeps (dec : Bool) (k : Track) :
    (editField dec k).editMode = k.editMode ∧
      (editField dec k).clockDivisionIndex = k.clockDivisionIndex ∧
      (editField dec k).manualHold = k.manualHold := by
  unfold editField
  split <;> exact ⟨rfl, rfl, rfl⟩

theorem editField_density {k : Track} (h : k.editMode = .density) (dec : Bool) :
    editField dec k = { k with pulseCount := editStep k.pulseCount dec k.loopLength } := by
  simp only [editField, h]

theorem editField_offset {k : Track} (h : k.editMode = .offset) (dec : Bool) :
    editField dec k = { k with rotation := editStep k.rotation dec k.loopLength } := by
  simp only [editField, h]

theorem editField_length {k : Track} (h : k.editMode = .length) (dec : Bool) :
    editField dec k = { k with loopLength := editLength k.loopLength dec } := by
  simp only [editField, h]

/-- One detent up or down, then the clamp, is one detent saturating, then the clamp (41_sequencer.md R111). -/
theorem min_editStep (x : BitVec 4) (dec : Bool) {len : BitVec 5} (hlen : len.toNat ≤ 16) :
    min (editStep x dec len).toNat (len.toNat - 1)
      = min (if dec then x.toNat - 1 else min (x.toNat + 1) (len.toNat - 1)) (len.toNat - 1) := by
  rw [editStep_toNat x dec len hlen]
  cases dec <;> simp

theorem min_clampStep (n : Nat) {len : BitVec 5} (hlen : len.toNat ≤ 16) :
    min (clampStep n len).toNat (len.toNat - 1) = min n (len.toNat - 1) := by
  rw [clampStep_toNat n len (by omega), min_assoc, min_self]

/-! ## The commands -/

/-- Settles O17: the mode picks the field, and the edited field is `editStep` or `editLength` of the old. -/
theorem editMovesSelectedField : Obligations.EditMovesSelectedField := by
  intro s t dec hpos hle
  refine ⟨_, rfl, editTrack_onlyTrack s t (editField dec), ?_⟩
  rw [track_editTrack_self]
  obtain ⟨hmode, hdiv, hhold⟩ := editField_keeps dec (s.track t)
  have hrec := recomputed_clampTrack s.params.euclidBase (editField dec (s.track t))
  refine ⟨hmode, hdiv, hhold, fun hm => ?_, fun hm => ?_, fun hm => ?_⟩
  · rw [editField_density hm] at hrec ⊢
    exact hrec.congr (min_editStep _ dec hle) rfl
  · rw [editField_offset hm] at hrec ⊢
    exact hrec.congr rfl (min_editStep _ dec hle)
  · rw [editField_length hm] at hrec ⊢
    exact editLength_toNat _ dec hpos hle ▸ hrec

/-- Settles O18: mode 3 is the one without an edit mode. -/
theorem setModeSelectsMode : Obligations.SetModeSelectsMode := by
  refine fun s t m => ⟨fun h => h ▸ execSetMode_of_reserved t s, fun h => ?_⟩
  cases hmode : editModeOfBits m with
  | none => exact absurd (editModeOfBits_eq_none_iff.mp hmode) h
  | some mode =>
    refine ⟨_, execSetMode_of_mode hmode t s, editTrack_onlyTrack s t _, ?_⟩
    rw [track_editTrack_self]
    exact ⟨editModeBits_of_editModeOfBits hmode, rfl, rfl, recomputed_clampTrack _ _⟩

/-- Settles O19. -/
theorem setDivClampsIndex : Obligations.SetDivClampsIndex := by
  intro s t k
  refine ⟨_, rfl, editTrack_onlyTrack s t _, ?_⟩
  rw [track_editTrack_self]
  exact ⟨clampDivision_toNat k, rfl, rfl, recomputed_clampTrack _ _⟩

/-- Settles O20: SET_HOLD writes the track back without clamp-recompute. -/
theorem setHoldWritesHoldOnly : Obligations.SetHoldWritesHoldOnly := fun s t _ =>
  ⟨_, rfl, setTrack_onlyTrack s t _, s.track_setTrack_self t _⟩

/-- Settles O21: the other fields are clamped below the new length. -/
theorem setLengthClampsLength : Obligations.SetLengthClampsLength := by
  intro s t k
  refine ⟨_, rfl, editTrack_onlyTrack s t _, ?_⟩
  rw [track_editTrack_self, ← clampLength_toNat]
  exact ⟨rfl, rfl, rfl, recomputed_clampTrack _ _⟩

/-- Settles O22: clamping the operand first changes nothing for the clamp after it. -/
theorem setPulsesAndSetRotationClamp : Obligations.SetPulsesAndSetRotationClamp := by
  intro s t k _ hle
  refine ⟨⟨_, rfl, editTrack_onlyTrack s t _, ?_⟩, ⟨_, rfl, editTrack_onlyTrack s t _, ?_⟩⟩ <;>
    rw [track_editTrack_self]
  · exact ⟨rfl, rfl, rfl, (recomputed_clampTrack _ _).congr (min_clampStep k.toNat hle) rfl⟩
  · exact ⟨rfl, rfl, rfl, (recomputed_clampTrack _ _).congr rfl (min_clampStep k.toNat hle)⟩

/-! ## The events that do nothing -/

/-- Only op 1 to 8 name a command (30_encoding.md R73, R74). -/
theorem exec_decodeCmd32_of_noOperation {d : Word} (h : cmdOp d = 0x0 ∨ 0x9 ≤ (cmdOp d).toNat) (s : State) :
    exec (decodeCmd32 d) s = .next s := by
  unfold decodeCmd32
  generalize cmdOp d = op at h
  split
  case h_2 | h_3 | h_4 | h_5 | h_6 | h_7 | h_8 | h_9 => exact absurd h (by decide)
  all_goals rfl

/-- Only CLOCK, START and STOP name an effect (42_transport.md R134, 30_encoding.md R79). -/
theorem exec_decodeXport8_of_noOperation {c : BitVec 8} (hclock : c ≠ 0xF8) (hstart : c ≠ 0xFA)
    (hstop : c ≠ 0xFC) (s : State) : exec (decodeXport8 c) s = .next s := by
  unfold decodeXport8
  split
  case h_1 => exact absurd rfl hclock
  case h_2 => exact absurd rfl hstart
  case h_4 => exact absurd rfl hstop
  all_goals rfl

/-- Settles O16. -/
theorem noOperationsChangeNothing : Obligations.NoOperationsChangeNothing := fun s =>
  ⟨⟨rfl, rfl, rfl, rfl, rfl, rfl, rfl, rfl⟩, rfl, fun _ => rfl,
    fun _ hop => exec_decodeCmd32_of_noOperation hop s,
    fun _ hclock hstart hstop => exec_decodeXport8_of_noOperation hclock hstart hstop s⟩

end Sys2Proof.Machine
end

section
/-! PROOFS. The tick (41_sequencer.md R119 to R123, R126). In either `TICK_ORDER` a track's turn writes the track
and triggers its voice when the track sounds (`tickTrack_eq`); the turns touch different tracks, so each finds
its track as the tick did. -/

namespace Sys2Proof.Machine

/-! ## One track's turn -/

/-- The track as a tick at this `stepCounter` leaves it (41_sequencer.md R119, R123). -/
def tickedTrack (sc : BitVec 5) (k : Track) : Track :=
  { k with activeStep := if fallsOn sc k then BitVec.ofNat 4 (stepAfter k) else k.activeStep }

/-- The model's divider is the divisor 16, 8, 4, 2, 1 (10_state.md R27). -/
theorem processedAt_eq_fallsOn {k : Track} (h : TrackInRange k) (sc : BitVec 5) :
    processedAt sc k = fallsOn sc k := by
  rw [processedAt, fallsOn, divRatio_eq _ h.division_le, ticksPerStep]

theorem advanceTrack_activeStep (k : Track) :
    (advanceTrack k).activeStep = BitVec.ofNat 4 (stepAfter k) := by
  unfold advanceTrack stepAfter
  dsimp only
  split <;> rfl

theorem stepAfter_lt {k : Track} (h : TrackInRange k) : stepAfter k < 16 := by
  have hstep := h.step_le
  have hle := h.length_le
  rw [maxSteps_eq] at hle
  unfold stepAfter
  split <;> omega

theorem tickedTrack_of_fallsOn {sc : BitVec 5} {k : Track} (h : fallsOn sc k = true) :
    tickedTrack sc k = advanceTrack k := by
  rw [tickedTrack, if_pos h, ← advanceTrack_activeStep]
  rfl

theorem tickedTrack_of_not_fallsOn {sc : BitVec 5} {k : Track} (h : fallsOn sc k = false) :
    tickedTrack sc k = k := by
  rw [tickedTrack, if_neg (by simp [h])]

/-- The gate test after the advance reads the mask at the step after. -/
theorem gateOpen_advanceTrack {k : Track} (h : TrackInRange k) :
    gateOpen (advanceTrack k) = (k.rhythmMask.getLsbD (stepAfter k) || k.manualHold) := by
  rw [gateOpen, advanceTrack_activeStep, BitVec.toNat_ofNat, Nat.mod_eq_of_lt (stepAfter_lt h)]
  rfl

/-- `Trigger` reads no track. -/
theorem trigger_setTrack (s : State) (t : TrackId) (k : Track) (v : VoiceId) :
    (s.setTrack t k).trigger v = (s.trigger v).setTrack t k := rfl

theorem setTrack_track (s : State) (t : TrackId) : s.setTrack t (s.track t) = s := by
  refine State.eq_of_fields rfl (State.tracks_eq fun u => ?_) rfl rfl rfl rfl rfl rfl rfl rfl
  rw [State.track_setTrack]
  split
  · next h => rw [h]
  · rfl

/-- Does a tick at this `stepCounter` gate track t's voice (41_sequencer.md R120)? -/
def State.sounding (s : State) (sc : BitVec 5) (t : TrackId) : Bool :=
  sounds s.params.tickOrder sc (s.track t)

/-- Trigger track t's voice if the track sounds. -/
def State.soundTrack (sc : BitVec 5) (s : State) (t : TrackId) : State :=
  if s.sounding sc t then s.trigger (s.voiceOf t) else s

/-- A track's turn: its voice is triggered if the track sounds, and the track is written. -/
theorem tickTrack_eq {s : State} {t : TrackId} (h : TrackInRange (s.track t)) (sc : BitVec 5) :
    s.tickTrack sc t = (s.soundTrack sc t).setTrack t (tickedTrack sc (s.track t)) := by
  unfold State.soundTrack State.sounding sounds
  rcases tickTrack_cases sc s t with ⟨hp, he⟩ | ⟨hp, ⟨ho, he⟩ | ⟨ho, he⟩⟩ <;>
    rw [processedAt_eq_fallsOn h] at hp <;> rw [he, hp]
  · rw [tickedTrack_of_not_fallsOn hp, Bool.false_and, if_neg Bool.false_ne_true, setTrack_track]
  · rw [tickedTrack_of_fallsOn hp, ho, Bool.true_and, testedStep, ← gateOpen_advanceTrack h, State.gateTrack,
      State.advance, State.track_setTrack_self]
    split
    · exact trigger_setTrack s t _ _
    · rfl
  · rw [tickedTrack_of_fallsOn hp, ho, Bool.true_and, State.advance, track_gateTrack]
    rfl

/-! ## What a turn leaves for the other tracks' turns -/

theorem voiceOf_tickTrack (sc : BitVec 5) (s : State) (t : TrackId) :
    (s.tickTrack sc t).voiceOf = s.voiceOf := by
  funext u
  rw [State.voiceOf, State.voiceOf, (tickTrack_only sc s t).params]

theorem sounding_tickTrack {sc : BitVec 5} {s : State} {t u : TrackId} (hu : u ≠ t) :
    (s.tickTrack sc t).sounding sc u = s.sounding sc u := by
  rw [State.sounding, State.sounding, track_tickTrack_other sc s t u hu, (tickTrack_only sc s t).params]

theorem ne_of_nodup_cons {t u : TrackId} {l : List TrackId} (hl : (t :: l).Nodup) (hu : u ∈ l) : u ≠ t :=
  fun h => (List.nodup_cons.mp hl).1 (h ▸ hu)

theorem inRange_after_turn {sc : BitVec 5} {s : State} {t : TrackId} {l : List TrackId}
    (hl : (t :: l).Nodup) (h : ∀ u ∈ t :: l, TrackInRange (s.track u)) :
    ∀ u ∈ l, TrackInRange ((s.tickTrack sc t).track u) := fun u hu => by
  rw [track_tickTrack_other sc s t u (ne_of_nodup_cons hl hu)]
  exact h u (List.mem_cons_of_mem t hu)

/-! ## The tracks after a tick -/

theorem track_foldl_tickTrack {sc : BitVec 5} {l : List TrackId} (hl : l.Nodup) {s : State}
    (h : ∀ t ∈ l, TrackInRange (s.track t)) (u : TrackId) :
    (l.foldl (State.tickTrack sc) s).track u
      = if u ∈ l then tickedTrack sc (s.track u) else s.track u := by
  induction l generalizing s with
  | nil => rfl
  | cons t l ih =>
    rw [List.foldl_cons, ih (List.nodup_cons.mp hl).2 (inRange_after_turn hl h)]
    by_cases hu : u = t
    · subst hu
      rw [if_neg (List.nodup_cons.mp hl).1, if_pos List.mem_cons_self,
        tickTrack_eq (h u List.mem_cons_self), State.track_setTrack_self]
    · rw [track_tickTrack_other sc s t u hu]
      simp only [List.mem_cons, hu, false_or]

theorem mem_trackIds (t : TrackId) : t ∈ trackIds := List.mem_finRange t

theorem nodup_trackIds : trackIds.Nodup := List.nodup_finRange numTracks

theorem track_tick {s : State} (h : ∀ t, TrackInRange (s.track t)) (t : TrackId) :
    s.tick.track t = tickedTrack s.tp.stepCounter (s.track t) :=
  (track_foldl_tickTrack nodup_trackIds
    (fun u _ => by rw [State.track_emit]; exact h u) t).trans (by
      rw [if_pos (mem_trackIds t), State.track_emit])

theorem nextStepCounter_eq (sc : BitVec 5) : nextStepCounter sc = if sc = 16 then 1 else sc + 1 := by
  have h : sc.toNat = stepCycle ↔ sc = 16 := BitVec.toNat_inj (y := 16#5)
  simp only [nextStepCounter, h]

/-- Settles O24: the four turns write `tickedTrack`, and `stepCounter` alone moves beside them. -/
theorem tickAdvancesProcessedTracks : Obligations.TickAdvancesProcessedTracks := fun s h =>
  ⟨track_tick h, by rw [tick_tp, nextStepCounter_eq], tick_tb s,
    State.byteAt_congr (tick_mem s) (tick_ramEpoch s),
    tick_params s, tick_ramEpoch s, tick_inputs s, tick_readData s⟩

/-! ## The gates of a tick -/

/-- Between the two states the machine drives records, and these are the gates they report. -/
def DrivesGates (gs : List Gate) (s s' : State) : Prop := ∃ rs, s'.out = s.out ++ rs ∧ gatesOf rs = gs

theorem DrivesGates.of_out_eq {s s' : State} (h : s'.out = s.out) : DrivesGates [] s s' :=
  ⟨[], by rw [h, List.append_nil], rfl⟩

theorem gatesOf_append (rs rs' : List OutRecord) : gatesOf (rs ++ rs') = gatesOf rs ++ gatesOf rs' :=
  List.filterMap_append

theorem DrivesGates.trans {gs gs' : List Gate} {s s' s'' : State} (h : DrivesGates gs s s')
    (h' : DrivesGates gs' s' s'') : DrivesGates (gs ++ gs') s s'' := by
  obtain ⟨rs, hout, rfl⟩ := h
  obtain ⟨rs', hout', rfl⟩ := h'
  exact ⟨rs ++ rs', by rw [hout', hout, List.append_assoc], gatesOf_append rs rs'⟩

theorem trigger_drivesGates (s : State) (v : VoiceId) : DrivesGates [.gate v] s (s.trigger v) :=
  ⟨_, trigger_out s v, rfl⟩

theorem tickTrack_drivesGates {sc : BitVec 5} {s : State} {t : TrackId} (h : TrackInRange (s.track t)) :
    DrivesGates (if s.sounding sc t then [.gate (s.voiceOf t)] else []) s (s.tickTrack sc t) := by
  rw [tickTrack_eq h, State.soundTrack]
  split
  · exact trigger_drivesGates s _
  · exact .of_out_eq rfl

theorem foldl_tickTrack_drivesGates {sc : BitVec 5} {l : List TrackId} (hl : l.Nodup) {s : State}
    (h : ∀ t ∈ l, TrackInRange (s.track t)) :
    DrivesGates ((l.filter (s.sounding sc)).map fun t => .gate (s.voiceOf t)) s
      (l.foldl (State.tickTrack sc) s) := by
  induction l generalizing s with
  | nil => exact .of_out_eq rfl
  | cons t l ih =>
    have hturn := tickTrack_drivesGates (sc := sc) (h t List.mem_cons_self)
    have hrest := ih (List.nodup_cons.mp hl).2 (inRange_after_turn (sc := sc) hl h)
    rw [voiceOf_tickTrack,
      List.filter_congr fun u hu => sounding_tickTrack (ne_of_nodup_cons hl hu)] at hrest
    have hboth := hturn.trans hrest
    rw [List.foldl_cons, List.filter_cons]
    cases hsound : s.sounding sc t <;> rw [hsound] at hboth <;> exact hboth

theorem tick_drivesGates {s : State} (h : ∀ t, TrackInRange (s.track t)) :
    DrivesGates (.tick s.tp.stepCounter ::
      (trackIds.filter (s.sounding s.tp.stepCounter)).map fun t => .gate (s.voiceOf t)) s s.tick := by
  have hreport : DrivesGates [.tick s.tp.stepCounter] s (s.emit (.tick s.tp.stepCounter)) :=
    ⟨_, State.emit_tick_out s _, rfl⟩
  exact hreport.trans (foldl_tickTrack_drivesGates nodup_trackIds fun t _ => h t)

/-! ## The voices after a tick -/

theorem voice_tickTrack {sc : BitVec 5} {s : State} {t : TrackId} (h : TrackInRange (s.track t))
    (v : VoiceId) : (s.tickTrack sc t).voice v = if s.voiceOf t = v ∧ s.sounding sc t = true
      then (triggerVoice (s.voice v) (s.currentSample v)).1 else s.voice v := by
  rw [tickTrack_eq h, State.voice_setTrack, State.soundTrack]
  by_cases hv : s.voiceOf t = v
  · subst hv
    cases s.sounding sc t <;> simp
  · cases s.sounding sc t <;> simp [hv, voice_trigger_other _ _ _ (Ne.symm hv)]

/-- The sample at a voice's position depends on the voice and the sample memory. -/
theorem currentSample_congr {s s' : State} {v : VoiceId} (hv : s'.voice v = s.voice v)
    (hm : s'.mem = s.mem) (he : s'.ramEpoch = s.ramEpoch) : s'.currentSample v = s.currentSample v := by
  rw [State.currentSample, State.currentSample, hv, State.sample_congr hm he]

/-- A voice that no sounding track maps to is left as it is. -/
theorem voice_foldl_tickTrack_of_silent {sc : BitVec 5} {l : List TrackId} (hl : l.Nodup) {s : State}
    (h : ∀ t ∈ l, TrackInRange (s.track t)) {v : VoiceId}
    (hv : ∀ t ∈ l, ¬(s.voiceOf t = v ∧ s.sounding sc t = true)) :
    (l.foldl (State.tickTrack sc) s).voice v = s.voice v := by
  induction l generalizing s with
  | nil => rfl
  | cons t l ih =>
    rw [List.foldl_cons, ih (List.nodup_cons.mp hl).2 (inRange_after_turn hl h),
      voice_tickTrack (h t List.mem_cons_self), if_neg (hv t List.mem_cons_self)]
    intro u hu
    rw [voiceOf_tickTrack, sounding_tickTrack (ne_of_nodup_cons hl hu)]
    exact hv u (List.mem_cons_of_mem t hu)

/-- A voice that a sounding track maps to, and no other track, is triggered once. -/
theorem voice_foldl_tickTrack_of_sounding {sc : BitVec 5} {l : List TrackId} (hl : l.Nodup) {s : State}
    (h : ∀ t ∈ l, TrackInRange (s.track t)) (hinj : Function.Injective s.voiceOf) {t : TrackId}
    (ht : t ∈ l) (hsound : s.sounding sc t = true) :
    (l.foldl (State.tickTrack sc) s).voice (s.voiceOf t)
      = (triggerVoice (s.voice (s.voiceOf t)) (s.currentSample (s.voiceOf t))).1 := by
  induction l generalizing s with
  | nil => cases ht
  | cons u l ih =>
    have hin := inRange_after_turn (sc := sc) hl h
    have hnodup := (List.nodup_cons.mp hl).2
    have hfirst := voice_tickTrack (sc := sc) (h u List.mem_cons_self) (s.voiceOf t)
    rw [List.foldl_cons]
    rcases List.mem_cons.mp ht with rfl | ht
    · rw [if_pos ⟨rfl, hsound⟩] at hfirst
      rw [voice_foldl_tickTrack_of_silent hnodup hin, hfirst]
      rintro w hw ⟨hvoice, -⟩
      rw [voiceOf_tickTrack] at hvoice
      exact ne_of_nodup_cons hl hw (hinj hvoice)
    · have hne := ne_of_nodup_cons hl ht
      rw [if_neg fun hu => hne (hinj hu.1).symm] at hfirst
      have hkeep := tickTrack_only sc s u
      have hrest := ih hnodup hin (by rwa [voiceOf_tickTrack]) ht (by rwa [sounding_tickTrack hne])
      rwa [voiceOf_tickTrack, hfirst, currentSample_congr hfirst hkeep.mem hkeep.ramEpoch] at hrest

/-- Under an injective `VOICE_OF_TRACK`, a tick triggers the voices of the sounding tracks, each once. -/
theorem voice_tick {s : State} (h : ∀ t, TrackInRange (s.track t)) (hinj : Function.Injective s.voiceOf)
    (v : VoiceId) : s.tick.voice v =
      if ∃ t, s.voiceOf t = v ∧ s.sounding s.tp.stepCounter t = true
      then (triggerVoice (s.voice v) (s.currentSample v)).1 else s.voice v := by
  split
  · next hex =>
    obtain ⟨t, rfl, hsound⟩ := hex
    exact voice_foldl_tickTrack_of_sounding (s := s.emit (.tick s.tp.stepCounter)) nodup_trackIds
      (fun u _ => h u) hinj (mem_trackIds t) hsound
  · next hnone =>
    exact voice_foldl_tickTrack_of_silent (s := s.emit (.tick s.tp.stepCounter)) nodup_trackIds
      (fun u _ => h u) fun t _ ht => hnone ⟨t, ht⟩

/-- The default `VOICE_OF_TRACK` (41_sequencer.md R126). -/
theorem voiceOf_default_iff {s : State} (h : s.params.voiceOfTrack = #v[0, 1, 2, 3]) (t : TrackId)
    (v : VoiceId) : s.voiceOf t = v ↔ t.val = v.val := by
  rw [State.voiceOf, h]
  revert t v
  decide

theorem voiceOf_default_injective {s : State} (h : s.params.voiceOfTrack = #v[0, 1, 2, 3]) :
    Function.Injective s.voiceOf := fun t u htu =>
  Fin.ext (((voiceOf_default_iff h t _).mp htu).trans ((voiceOf_default_iff h u _).mp rfl).symm)

/-- Settles O25. -/
theorem tickGatesSoundingTracks : Obligations.TickGatesSoundingTracks := by
  refine fun s h => ⟨?_, fun hdefault v => ?_⟩
  · rw [← trackIds_eq]
    exact tick_drivesGates h
  · rw [voice_tick h (voiceOf_default_injective hdefault)]
    simp only [voiceOf_default_iff hdefault]
    rfl

end Sys2Proof.Machine
end

section
/-! PROOFS. The sequencer does not see the rendering (41_sequencer.md R129). Two states with the same sequencer
and the same gates driven so far are `SequencerAgrees`: an event of the voices or the bus leaves a state that
agrees with the one before it (`IsQuiet`), and every other event takes agreeing states to agreeing states
(`KeepsAgreement`). -/

namespace Sys2Proof.Machine

/-! ## Agreement -/

/-- The sequencers of two states agree, and the gates of their records do. -/
structure SequencerAgrees (s s' : State) : Prop where
  tracks : s'.tracks = s.tracks
  tp : s'.tp = s.tp
  tb : s'.tb = s.tb
  params : s'.params = s.params
  gates : gatesOf s'.out = gatesOf s.out

/-- What the voice makes of its gate is no part of the gate (assumption log 23). -/
theorem gatesOf_trig (v : VoiceId) (k : TrigKind) : gatesOf [.trig v k] = [.gate v] := rfl

namespace SequencerAgrees

variable {s s' s'' : State}

theorem refl (s : State) : SequencerAgrees s s := ⟨rfl, rfl, rfl, rfl, rfl⟩

theorem symm (h : SequencerAgrees s s') : SequencerAgrees s' s :=
  ⟨h.tracks.symm, h.tp.symm, h.tb.symm, h.params.symm, h.gates.symm⟩

theorem trans (h : SequencerAgrees s s') (h' : SequencerAgrees s' s'') : SequencerAgrees s s'' :=
  ⟨h'.tracks.trans h.tracks, h'.tp.trans h.tp, h'.tb.trans h.tb, h'.params.trans h.params,
    h'.gates.trans h.gates⟩

theorem same (h : SequencerAgrees s s') : SameSequencer s s' := ⟨h.tracks, h.tp, h.tb, h.params⟩

/-- Two steps start from no records, so their states agree when the sequencers do. -/
theorem takeInput (h : SameSequencer s s') (xs xs' : List Input) :
    SequencerAgrees (s.takeInput xs) (s'.takeInput xs') := by
  obtain ⟨htracks, htp, htb, hparams⟩ := h
  exact ⟨htracks, htp, htb, hparams, rfl⟩

theorem track (h : SequencerAgrees s s') (t : TrackId) : s'.track t = s.track t := by
  rw [State.track, State.track, h.tracks]

/-! ## Operations of the sequencer -/

theorem setTransport (h : SequencerAgrees s s') (x : Transport) :
    SequencerAgrees { s with tp := x } { s' with tp := x } :=
  ⟨h.tracks, rfl, h.tb, h.params, h.gates⟩

theorem setTimeBase (h : SequencerAgrees s s') (x : TimeBase) :
    SequencerAgrees { s with tb := x } { s' with tb := x } :=
  ⟨h.tracks, h.tp, rfl, h.params, h.gates⟩

theorem setTrack (h : SequencerAgrees s s') (t : TrackId) (k : Track) :
    SequencerAgrees (s.setTrack t k) (s'.setTrack t k) :=
  ⟨congrArg (·.set t k) h.tracks, h.tp, h.tb, h.params, h.gates⟩

theorem editTrack (h : SequencerAgrees s s') (t : TrackId) (f : Track → Track) :
    SequencerAgrees (s.editTrack t f) (s'.editTrack t f) := by
  rw [State.editTrack, State.editTrack, h.track, h.params]
  exact h.setTrack t _

theorem emitTick (h : SequencerAgrees s s') (sc : BitVec 5) :
    SequencerAgrees (s.emit (.tick sc)) (s'.emit (.tick sc)) :=
  ⟨h.tracks, h.tp, h.tb, h.params, by
    rw [State.emit_tick_out, State.emit_tick_out, gatesOf_append, gatesOf_append, h.gates]⟩

theorem trigger (h : SequencerAgrees s s') (v : VoiceId) :
    SequencerAgrees (s.trigger v) (s'.trigger v) :=
  ⟨h.tracks, h.tp, h.tb, h.params, by
    rw [trigger_out, trigger_out, gatesOf_append, gatesOf_append, h.gates, gatesOf_trig, gatesOf_trig]⟩

theorem advance (h : SequencerAgrees s s') (t : TrackId) :
    SequencerAgrees (s.advance t) (s'.advance t) := by
  rw [State.advance, State.advance, h.track]
  exact h.setTrack t _

theorem gateTrack (h : SequencerAgrees s s') (t : TrackId) :
    SequencerAgrees (s.gateTrack t) (s'.gateTrack t) := by
  rw [State.gateTrack, State.gateTrack, h.track, State.voiceOf, State.voiceOf, h.params]
  split
  · exact h.trigger _
  · exact h

theorem tickTrack (h : SequencerAgrees s s') (sc : BitVec 5) (t : TrackId) :
    SequencerAgrees (s.tickTrack sc t) (s'.tickTrack sc t) := by
  rw [State.tickTrack, State.tickTrack, h.track, h.params]
  split
  · cases s.params.tickOrder with
    | advanceThenTest => exact (h.advance t).gateTrack t
    | testThenAdvance => exact (h.gateTrack t).advance t
  · exact h

theorem tick (h : SequencerAgrees s s') : SequencerAgrees s.tick s'.tick := by
  have hturns := List.foldl_rel (l := trackIds) (h.emitTick s.tp.stepCounter)
    fun t _ _ _ hc => SequencerAgrees.tickTrack hc s.tp.stepCounter t
  rw [State.tick, State.tick, h.tp]
  dsimp only
  rw [hturns.tp]
  exact hturns.setTransport _

theorem rewind (h : SequencerAgrees s s') (t : TrackId) : SequencerAgrees (s.rewind t) (s'.rewind t) := by
  rw [State.rewind, State.rewind, h.track]
  exact h.setTrack t _

theorem startSequence (h : SequencerAgrees s s') : SequencerAgrees s.startSequence s'.startSequence := by
  rw [State.startSequence, State.startSequence, h.tp]
  exact (List.foldl_rel (l := trackIds) (h.setTransport _) fun t _ _ _ hc =>
    SequencerAgrees.rewind hc t).tick

theorem internalTickDue (h : SequencerAgrees s s') :
    Machine.internalTickDue s' = Machine.internalTickDue s := by
  rw [Machine.internalTickDue, Machine.internalTickDue, h.params, h.tp, h.tb]

theorem internalClockCheck (h : SequencerAgrees s s') :
    SequencerAgrees s.internalClockCheck s'.internalClockCheck := by
  rw [State.internalClockCheck, State.internalClockCheck, h.internalTickDue, h.tb]
  split
  · exact (h.setTimeBase _).tick
  · exact h

theorem applyReset (h : SequencerAgrees s s') : SequencerAgrees s.applyReset s'.applyReset :=
  ⟨rfl, congrArg (fun p : Params => transportReset p.bpmReset) h.params, rfl, h.params, rfl⟩

end SequencerAgrees

/-! ## Events the sequencer cannot see -/

/-- The outcome is a state whose sequencer, and whose gates driven, are those of `s`. -/
def IsQuiet (s : State) (o : Host.Outcome State Fault Refusal) : Prop :=
  ∃ u, o = .next u ∧ SequencerAgrees s u

theorem isQuiet_hold (s : State) : IsQuiet s (.next s) := ⟨s, rfl, .refl s⟩

theorem isQuiet_setVoice (s : State) (v : VoiceId) (x : Voice) : IsQuiet s (.next (s.setVoice v x)) :=
  ⟨_, rfl, ⟨rfl, rfl, rfl, rfl, rfl⟩⟩

theorem isQuiet_storeSample (s : State) (v : VoiceId) (i : BitVec 20) (d : Word) :
    IsQuiet s (.next (s.storeSample v i d)) := by
  rcases storeSample_cases s v i d with ⟨-, -, h⟩ | ⟨-, h⟩ <;> rw [h]
  · exact ⟨_, rfl, ⟨rfl, rfl, rfl, rfl, rfl⟩⟩
  · exact isQuiet_hold s

theorem isQuiet_render (s : State) : IsQuiet s (.next s.render) := by
  obtain ⟨hframe, l, r, hout⟩ := render_only s
  refine ⟨_, rfl, ⟨hframe.tracks, hframe.tp, hframe.tb, hframe.params, ?_⟩⟩
  rw [hout, gatesOf_append]
  exact List.append_nil _

theorem isQuiet_execWrVctrl (v : VoiceId) (d : Word) (s : State) : IsQuiet s (execWrVctrl v d s) := by
  unfold execWrVctrl
  split
  · exact isQuiet_setVoice s v _
  · exact isQuiet_hold s

theorem isQuiet_execWrVlen (v : VoiceId) (d : Word) (s : State) : IsQuiet s (execWrVlen v d s) := by
  unfold execWrVlen
  split
  · exact isQuiet_hold s
  · exact isQuiet_setVoice s v _

theorem isQuiet_of_isSampleOrRead {x : Input} (hx : isSampleOrRead x = true) (s : State) :
    IsQuiet s (perform x s) := by
  cases x <;> simp only [isSampleOrRead, Bool.false_eq_true] at hx
  case busR wa =>
    obtain ⟨w, hw⟩ : HasAnswer s (perform (.busR wa) s) := decodeBusR_hasAnswer wa s
    exact ⟨_, hw, ⟨rfl, rfl, rfl, rfl, rfl⟩⟩
  case sampleReq => exact isQuiet_render s

/-! ## Events of the sequencer -/

/-- Agreeing states have agreeing outcomes. -/
def KeepsAgreement (f : State → Host.Outcome State Fault Refusal) : Prop :=
  ∀ s s', SequencerAgrees s s' → ∃ u u', f s = .next u ∧ f s' = .next u' ∧ SequencerAgrees u u'

theorem keepsAgreement_next {f : State → State}
    (hf : ∀ {s s'}, SequencerAgrees s s' → SequencerAgrees (f s) (f s')) :
    KeepsAgreement fun s => .next (f s) :=
  fun _ _ h => ⟨_, _, rfl, rfl, hf h⟩

theorem keepsAgreement_hold : KeepsAgreement .next := keepsAgreement_next id

theorem keepsAgreement_of_isQuiet {f : State → Host.Outcome State Fault Refusal}
    (hf : ∀ s, IsQuiet s (f s)) : KeepsAgreement f := by
  intro s s' h
  obtain ⟨u, hu, hsu⟩ := hf s
  obtain ⟨u', hu', hsu'⟩ := hf s'
  exact ⟨u, u', hu, hu', hsu.symm.trans (h.trans hsu')⟩

theorem keepsAgreement_execSetMode (t : TrackId) (m : BitVec 2) : KeepsAgreement (execSetMode t m) := by
  unfold execSetMode
  cases editModeOfBits m with
  | none => exact keepsAgreement_hold
  | some mode => exact keepsAgreement_next fun h => h.editTrack t _

theorem keepsAgreement_execSetHold (t : TrackId) (b : Bool) : KeepsAgreement (execSetHold t b) :=
  keepsAgreement_next fun h => by
    rw [h.track]
    exact h.setTrack t _

theorem keepsAgreement_execClock : KeepsAgreement execClock := by
  intro s s' h
  rw [execClock, execClock, h.tp]
  have hpulse := h.setTransport { s.tp with pulseCounter := nextPulse s.tp.pulseCounter }
  split
  · dsimp only
    split
    · exact ⟨_, _, rfl, rfl, hpulse.tick⟩
    · exact ⟨_, _, rfl, rfl, hpulse⟩
  · exact ⟨_, _, rfl, rfl, h⟩

theorem keepsAgreement_execStart : KeepsAgreement execStart :=
  keepsAgreement_next fun h => by
    rw [h.tp]
    exact (h.setTransport _).startSequence

theorem keepsAgreement_execStop : KeepsAgreement execStop :=
  keepsAgreement_next fun h => by
    rw [h.tp]
    exact h.setTransport _

theorem keepsAgreement_execUsStrobe : KeepsAgreement execUsStrobe :=
  keepsAgreement_next fun h => by
    rw [h.tb]
    exact (h.setTimeBase _).internalClockCheck

theorem keepsAgreement_execWrBpm (d : Word) : KeepsAgreement (execWrBpm d) :=
  keepsAgreement_next fun h => by
    rw [h.tp]
    exact h.setTransport _

theorem keepsAgreement_decodeCmd32 (d : Word) : KeepsAgreement (exec (decodeCmd32 d)) := by
  unfold decodeCmd32
  split
  case h_2 | h_4 | h_6 | h_7 | h_8 => exact keepsAgreement_next fun h => h.editTrack _ _
  case h_3 => exact keepsAgreement_execSetMode _ _
  case h_5 => exact keepsAgreement_execSetHold _ _
  case h_9 => exact keepsAgreement_next fun h => h.trigger _
  all_goals exact keepsAgreement_hold

theorem keepsAgreement_decodeXport8 (c : BitVec 8) : KeepsAgreement (exec (decodeXport8 c)) := by
  unfold decodeXport8
  split
  · exact keepsAgreement_execClock
  · exact keepsAgreement_execStart
  · exact keepsAgreement_hold
  · exact keepsAgreement_execStop
  · exact keepsAgreement_hold

/-- Of the registers only CMD, XPORT and BPM reach the sequencer. -/
theorem keepsAgreement_decodeRegisterWrite (wa : WordAddr) (d : Word) :
    KeepsAgreement (performDecoded (decodeRegisterWrite wa d)) := by
  unfold decodeRegisterWrite
  split
  · intro s s' h
    obtain ⟨u, u', hu, hu', hagree⟩ := keepsAgreement_decodeCmd32 d s s' h
    exact ⟨u, u', (execWrCmd_eq d s).trans hu, (execWrCmd_eq d s').trans hu', hagree⟩
  split
  · intro s s' h
    obtain ⟨u, u', hu, hu', hagree⟩ := keepsAgreement_decodeXport8 (d.extractLsb' 0 8) s s' h
    exact ⟨u, u', (execWrXport_eq d s).trans hu, (execWrXport_eq d s').trans hu', hagree⟩
  split
  · exact keepsAgreement_execWrBpm d
  split
  · split
    · exact keepsAgreement_of_isQuiet (isQuiet_execWrVctrl _ d)
    · exact keepsAgreement_of_isQuiet (isQuiet_execWrVlen _ d)
    · exact keepsAgreement_of_isQuiet fun s => isQuiet_setVoice s _ _
    · exact keepsAgreement_of_isQuiet fun s => isQuiet_setVoice s _ _
    · exact keepsAgreement_hold
  · exact keepsAgreement_hold

theorem keepsAgreement_decodeBusW (wa : WordAddr) (d : Word) :
    KeepsAgreement (performDecoded (decodeBusW wa d)) := by
  unfold decodeBusW
  split
  · exact keepsAgreement_decodeRegisterWrite wa d
  case h_10 => exact keepsAgreement_hold
  all_goals exact keepsAgreement_of_isQuiet fun s => isQuiet_storeSample s _ _ d

theorem keepsAgreement_perform (x : Input) : KeepsAgreement (perform x) := by
  cases x with
  | cmd32 d => exact keepsAgreement_decodeCmd32 d
  | xport8 c => exact keepsAgreement_decodeXport8 c
  | busW wa d => exact keepsAgreement_decodeBusW wa d
  | busR wa => exact keepsAgreement_of_isQuiet (isQuiet_of_isSampleOrRead rfl)
  | usStrobe => exact keepsAgreement_execUsStrobe
  | sampleReq => exact keepsAgreement_of_isQuiet isQuiet_render
  | reset => exact keepsAgreement_next fun h => h.applyReset

/-! ## Runs -/

/-- A run performs its first event and runs the others from there. -/
theorem runEvents_cons {x : Input} {xs : List Input} {s u : State}
    (h : perform x (s.takeInput xs) = .next u) :
    runEvents (x :: xs) s = (runEvents xs u).map fun r => (r.1, u.out ++ r.2) := by
  have hstep : step (s.present (x :: xs)) = .next u := h
  obtain ⟨-, hinputs⟩ := (effect_of_perform h).params_inputs
  have hqueue : u.present xs = u :=
    State.eq_of_fields rfl rfl rfl rfl rfl rfl rfl hinputs.symm rfl rfl
  rw [runEvents, runEvents, hqueue, List.length_cons, runSteps, hstep]
  dsimp only
  cases runSteps xs.length u <;> rfl

/-- Settles O34, by induction on the events: one that is left out changes nothing the sequencer reads or drives,
and any other keeps the agreement. -/
theorem sequencerIsIndependentOfRendering : Obligations.SequencerIsIndependentOfRendering := by
  intro xs
  induction xs with
  | nil =>
    rintro s s' t rs hsame ⟨⟩
    exact ⟨_, _, rfl, hsame, rfl⟩
  | cons x xs ih =>
    intro s s' t rs hsame hrun
    cases hx : isSampleOrRead x with
    | true =>
      obtain ⟨u, hu, hquiet⟩ := isQuiet_of_isSampleOrRead hx (s.takeInput xs)
      rw [runEvents_cons hu, Option.map_eq_some_iff] at hrun
      obtain ⟨⟨t, rs⟩, hrest, ⟨⟩⟩ := hrun
      have hsameRest : SameSequencer u s' := (hquiet.symm.trans (.takeInput hsame xs [])).same
      obtain ⟨t', rs', hrun', hsame', hgates⟩ := ih u s' t rs hsameRest hrest
      refine ⟨t', rs', by simpa [hx] using hrun', hsame', ?_⟩
      rw [gatesOf_append, hquiet.gates, hgates]
      rfl
    | false =>
      obtain ⟨u, u', hu, hu', hagree⟩ :=
        keepsAgreement_perform x _ _ (.takeInput hsame xs (xs.filter fun y => !isSampleOrRead y))
      rw [runEvents_cons hu, Option.map_eq_some_iff] at hrun
      obtain ⟨⟨t, rs⟩, hrest, ⟨⟩⟩ := hrun
      obtain ⟨t', rs', hrun', hsame', hgates⟩ := ih u u' t rs hagree.same hrest
      refine ⟨t', u'.out ++ rs', ?_, hsame', ?_⟩
      · rw [List.filter_cons_of_pos (by simp [hx]), runEvents_cons hu', hrun']
        rfl
      · rw [gatesOf_append, gatesOf_append, hagree.gates, hgates]

end Sys2Proof.Machine
end

section
/-! PROOFS. The transport events and the tempo (42_transport.md R131 to R133, R137, 41_sequencer.md R124). A START
is one tick of the machine with its transport external and running and its tracks rewound (`execStart_eq`); what
holds of a tick then says what a START does. -/

namespace Sys2Proof.Machine

/-! ## STOP and the tempo -/

/-- A write of the transport changes the transport alone. -/
theorem setTransport_onlyTransport (s : State) (x : Transport) : OnlyTransport s { s with tp := x } :=
  ⟨fun _ => rfl, fun _ => rfl, fun _ => rfl, rfl, rfl, rfl, rfl, rfl, rfl⟩

/-- The machine with its transport halted (42_transport.md R132). -/
def State.stopped (s : State) : State :=
  { s with tp := { s.tp with running := false, pulseCounter := 0 } }

theorem execStop_eq (s : State) : execStop s = .next s.stopped := rfl

/-- Settles O28. -/
theorem stopHaltsTransport : Obligations.StopHaltsTransport := fun s =>
  ⟨s.stopped, execStop_eq s, setTransport_onlyTransport s _, rfl⟩

/-- Settles O36: `clampBpm` is the clamp that the statement writes out. -/
theorem writeBpmClamps : Obligations.WriteBpmClamps := fun _ s =>
  ⟨_, rfl, setTransport_onlyTransport s _, rfl⟩

/-! ## CLOCK -/

/-- The machine with one more pulse counted (42_transport.md R133). -/
def State.countPulse (s : State) : State :=
  { s with tp := { s.tp with pulseCounter := nextPulse s.tp.pulseCounter } }

theorem nextPulse_toNat (pc : BitVec 5) : (nextPulse pc).toNat = (pc.toNat + 1) % 24 := by
  rw [nextPulse, ppqn_eq, BitVec.toNat_ofNat]
  omega

theorem execClock_of_stopped {s : State} (h : s.tp.running = false) : execClock s = .next s := by
  rw [execClock, if_neg (by simp [h])]

/-- A pulse that is counted ticks on every multiple of 3. -/
theorem execClock_of_running {s : State} (h : s.tp.running = true) :
    execClock s = .next (if ((s.tp.pulseCounter.toNat + 1) % 24) % 3 = 0 then s.countPulse.tick
      else s.countPulse) := by
  rw [execClock, if_pos h, ← nextPulse_toNat]
  dsimp only
  rw [pulsesPerTick_eq]
  split <;> rfl

/-- Settles O26: the three clauses are the stopped case and the two outcomes of `execClock_of_running`. -/
theorem clockCountsPulses : Obligations.ClockCountsPulses := by
  refine fun s => ⟨execClock_of_stopped, fun hrun hpulse => ?_, fun hrun hpulse => ?_⟩
  · refine ⟨s.countPulse, ?_, setTransport_onlyTransport s _, rfl⟩
    exact (execClock_of_running hrun).trans (by rw [if_neg hpulse])
  · exact (execClock_of_running hrun).trans (by rw [if_pos hpulse]; rfl)

/-! ## START -/

/-- A track at its first step. -/
def rewoundTrack (k : Track) : Track := { k with activeStep := 0 }

/-- Every track at its first step (41_sequencer.md R124). -/
def State.rewound (s : State) : State := { s with tracks := s.tracks.map rewoundTrack }

@[simp] theorem track_rewound (s : State) (t : TrackId) : s.rewound.track t = rewoundTrack (s.track t) := by
  simp [State.rewound, State.track]

theorem track_rewind (s : State) (t u : TrackId) :
    (s.rewind t).track u = if u = t then rewoundTrack (s.track u) else s.track u := by
  rw [State.rewind, State.track_setTrack]
  split
  · next h => rw [h]; rfl
  · rfl

theorem track_foldl_rewind (l : List TrackId) (s : State) (u : TrackId) :
    (l.foldl State.rewind s).track u = if u ∈ l then rewoundTrack (s.track u) else s.track u := by
  induction l generalizing s with
  | nil => rfl
  | cons t l ih =>
    rw [List.foldl_cons, ih, track_rewind]
    by_cases hu : u = t <;> simp [hu, rewoundTrack]

theorem foldl_rewind_out (l : List TrackId) (s : State) : (l.foldl State.rewind s).out = s.out :=
  List.foldlRecOn l (motive := fun t : State => t.out = s.out) _ rfl fun _ h _ _ => h

theorem foldl_rewind_trackIds (s : State) : trackIds.foldl State.rewind s = s.rewound := by
  have htracks (t : TrackId) : (trackIds.foldl State.rewind s).track t = s.rewound.track t := by
    rw [track_foldl_rewind, if_pos (mem_trackIds t), track_rewound]
  have h := foldl_rewind_only trackIds s
  exact State.eq_of_fields h.params (State.tracks_eq htracks) (foldl_rewind_voices _ s) h.mem h.ramEpoch h.tp
    h.tb h.inputs (foldl_rewind_out _ s) h.readData

/-- The machine whose next tick is the start tick (42_transport.md R131, 41_sequencer.md R124). -/
def State.armed (s : State) : State :=
  State.rewound { s with tp := { s.tp with mode := .external, running := true, stepCounter := 1 } }

@[simp] theorem track_armed (s : State) (t : TrackId) : s.armed.track t = rewoundTrack (s.track t) :=
  track_rewound _ t

theorem execStart_eq (s : State) : execStart s = .next s.armed.tick := by
  rw [execStart, State.startSequence, foldl_rewind_trackIds]
  rfl

theorem rewoundTrack_inRange {k : Track} (h : TrackInRange k) : TrackInRange (rewoundTrack k) :=
  { h with step_le := Nat.zero_le _ }

/-- The start tick falls on division index 4 alone (41_sequencer.md R123). -/
theorem fallsOn_one_iff {k : Track} (h : TrackInRange k) :
    fallsOn 1 k = true ↔ k.clockDivisionIndex = 4 := by
  have hdiv : k.clockDivisionIndex.toNat ≤ 4 := h.division_le
  rw [fallsOn, ticksPerStep]
  generalize k.clockDivisionIndex = d at hdiv
  revert d
  decide

/-- A loop of one step has no other step to go to. -/
theorem stepAfter_rewoundTrack {k : Track} (h : TrackInRange k) :
    stepAfter (rewoundTrack k) = if 1 < k.loopLength.toNat then 1 else 0 := by
  have hpos := h.length_pos
  have hstep : (rewoundTrack k).activeStep.toNat = 0 := rfl
  have hlen : (rewoundTrack k).loopLength = k.loopLength := rfl
  rw [stepAfter, hstep, hlen]
  split <;> split <;> omega

/-- A track after the start tick (42_transport.md R131, R143). -/
theorem tickedTrack_rewoundTrack {k : Track} (h : TrackInRange k) :
    tickedTrack 1 (rewoundTrack k) = { k with
      activeStep := if k.clockDivisionIndex = 4 ∧ 1 < k.loopLength.toNat then 1 else 0 } := by
  have hfalls : fallsOn 1 (rewoundTrack k) = true ↔ k.clockDivisionIndex = 4 :=
    fallsOn_one_iff (rewoundTrack_inRange h)
  simp only [tickedTrack, hfalls, stepAfter_rewoundTrack h]
  by_cases hdiv : k.clockDivisionIndex = 4
  · by_cases hlen : 1 < k.loopLength.toNat <;> simp [hdiv, hlen, rewoundTrack]
  · rw [if_neg hdiv, if_neg fun hboth => hdiv hboth.1]
    rfl

/-- Settles O27: START is the tick of the armed machine. -/
theorem startRunsStartSequence : Obligations.StartRunsStartSequence := by
  intro s h
  have harmed (t : TrackId) : TrackInRange (s.armed.track t) := by
    rw [track_armed]
    exact rewoundTrack_inRange (h t)
  refine ⟨s.armed.tick, execStart_eq s, rfl, tick_tp _, tick_tb _,
    State.byteAt_congr (tick_mem _) (tick_ramEpoch _),
    ⟨tick_params _, tick_ramEpoch _, tick_inputs _, tick_readData _⟩, fun t => ?_, ?_⟩
  · rw [track_tick harmed, track_armed]
    exact tickedTrack_rewoundTrack (h t)
  · obtain ⟨rs, hout, hgates⟩ := tick_drivesGates harmed
    refine ⟨rs, hout, hgates.trans ?_⟩
    have hsounding : s.armed.sounding s.armed.tp.stepCounter =
        fun t => sounds s.params.tickOrder 1 (rewoundTrack (s.track t)) := by
      funext t
      rw [State.sounding, track_armed]
      rfl
    rw [hsounding, trackIds_eq]
    rfl

end Sys2Proof.Machine
end

section
/-! PROOFS. Counting ticks along a run (42_transport.md R143): a run is followed event by event with
`RunsTicking.cons`, and `k` pulses from a running transport are `(pulseCounter mod 3 + k) / 3` ticks. -/

namespace Sys2Proof.Machine

/-! ## Ticks of an operation -/

theorem tickCount_nil : tickCount [] = 0 := rfl

theorem tickCount_append (rs rs' : List OutRecord) : tickCount (rs ++ rs') = tickCount rs + tickCount rs' :=
  List.countP_append

theorem tickCount_trigger (s : State) (v : VoiceId) : tickCount (s.trigger v).out = tickCount s.out := by
  rw [trigger_out, tickCount_append]
  rfl

/-- A tick reports itself once, whatever it triggers. -/
theorem tickCount_tick (s : State) : tickCount s.tick.out = tickCount s.out + 1 := by
  have hturns := foldl_tickTrack_induction
    (P := fun t => tickCount t.out = tickCount (s.emit (.tick s.tp.stepCounter)).out)
    (fun _ _ h => h) (fun t v h => (tickCount_trigger t v).trans h) s.tp.stepCounter trackIds rfl
  rw [State.emit_tick_out, tickCount_append] at hturns
  exact hturns

/-! ## Ticks of a run -/

/-- The events lead from `s` to `t`, and the run reports `n` ticks. -/
def RunsTicking (n : Nat) (xs : List Input) (s t : State) : Prop :=
  ∃ rs, runEvents xs s = some (t, rs) ∧ tickCount rs = n

theorem RunsTicking.nil (s : State) : RunsTicking 0 [] s (s.present []) := ⟨[], rfl, rfl⟩

theorem RunsTicking.cons {n : Nat} {x : Input} {xs : List Input} {s u t : State}
    (hx : perform x (s.takeInput xs) = .next u) (h : RunsTicking n xs u t) :
    RunsTicking (tickCount u.out + n) (x :: xs) s t := by
  obtain ⟨rs, hrun, rfl⟩ := h
  exact ⟨u.out ++ rs, by rw [runEvents_cons hx, hrun]; rfl, tickCount_append _ _⟩

/-! ## START and pulses -/

/-- One counted pulse: the transport keeps running, and the pulse ticks on a multiple of 3. -/
theorem execClock_counts {s : State} (h : s.tp.running = true) :
    ∃ u, execClock s = .next u ∧ u.tp.running = true ∧
      u.tp.pulseCounter.toNat = (s.tp.pulseCounter.toNat + 1) % 24 ∧
      tickCount u.out = tickCount s.out + if ((s.tp.pulseCounter.toNat + 1) % 24) % 3 = 0 then 1 else 0 := by
  refine ⟨_, execClock_of_running h, ?_⟩
  split
  · rw [tick_tp]
    exact ⟨h, nextPulse_toNat _, tickCount_tick _⟩
  · exact ⟨h, nextPulse_toNat _, rfl⟩

/-- The wrap at 24 is invisible, because 24 is a multiple of 3. -/
theorem pulses_runTicking (k : Nat) {s : State} (h : s.tp.running = true) :
    ∃ t, RunsTicking ((s.tp.pulseCounter.toNat % 3 + k) / 3) (List.replicate k (.xport8 0xF8)) s t := by
  induction k generalizing s with
  | zero =>
    have hnone : (s.tp.pulseCounter.toNat % 3 + 0) / 3 = 0 := by omega
    rw [hnone]
    exact ⟨_, .nil s⟩
  | succ k ih =>
    obtain ⟨u, hu, hrun, hpulse, hticks⟩ := execClock_counts (s := s.takeInput (.replicate k (.xport8 0xF8))) h
    obtain ⟨t, ht⟩ := ih hrun
    refine ⟨t, ?_⟩
    have hcount : (s.tp.pulseCounter.toNat % 3 + (k + 1)) / 3
        = tickCount u.out + (u.tp.pulseCounter.toNat % 3 + k) / 3 := by
      rw [hticks, hpulse, State.takeInput_out, State.takeInput_tp, tickCount_nil]
      split <;> omega
    rw [hcount]
    exact .cons hu ht

/-- START is one tick, and leaves a running transport. -/
theorem start_pulses_runTicking (s : State) (n : Nat) :
    ∃ t, RunsTicking (1 + n) (.xport8 0xFA :: List.replicate (3 * n) (.xport8 0xF8)) s t := by
  have hstart := execStart_eq (s.takeInput (.replicate (3 * n) (.xport8 0xF8)))
  have hrunning : (s.takeInput (.replicate (3 * n) (.xport8 0xF8))).armed.tick.tp.running = true := by
    rw [tick_tp]
    rfl
  obtain ⟨t, ht⟩ := pulses_runTicking (3 * n) hrunning
  have hrun := RunsTicking.cons (x := .xport8 0xFA) hstart ht
  rw [tickCount_tick, show tickCount (State.armed _).out = 0 from rfl, show ∀ p, (p % 3 + 3 * n) / 3 = n by omega]
    at hrun
  exact ⟨t, hrun⟩

/-- Settles O31: (b) is what START leaves of the stopped machine. -/
theorem transportCountingLaws : Obligations.TransportCountingLaws := by
  refine ⟨start_pulses_runTicking, fun s h => ?_⟩
  obtain ⟨t, hstart, -, htp, -, -, -, htracks, -⟩ :=
    startRunsStartSequence ((s.takeInput [.xport8 0xFA]).stopped.takeInput []) h
  obtain ⟨rs, hrun, -⟩ : RunsTicking _ [.xport8 0xFC, .xport8 0xFA] s _ :=
    .cons (execStop_eq _) (.cons hstart (.nil t))
  exact ⟨_, rs, hrun, congrArg Transport.pulseCounter htp, congrArg Transport.stepCounter htp,
    fun k => congrArg Track.activeStep (htracks k)⟩

end Sys2Proof.Machine
end

section
/-! PROOFS. The internal clock (42_transport.md R135, R136, R138, R141, R142). A strobe either ticks or brings the
next tick one strobe closer (`strobesLeft`); the time between ticks is an induction on that number. -/

namespace Sys2Proof.Machine

/-! ## One strobe -/

/-- The machine one microsecond later, before its clock check (42_transport.md R135). -/
def State.strobed (s : State) : State := { s with tb := { s.tb with nowUs := s.tb.nowUs + 1 } }

theorem execUsStrobe_of_due {s : State} (h : internalTickDue s.strobed = true) :
    execUsStrobe s = .next (State.tick
      { s with tb := { nowUs := s.tb.nowUs + 1, lastTickUs := s.tb.nowUs + 1 } }) := by
  rcases internalClockCheck_cases s.strobed with ⟨-, he⟩ | ⟨hnot, -⟩
  · exact congrArg Host.Outcome.next he
  · simp [h] at hnot

theorem execUsStrobe_of_not_due {s : State} (h : internalTickDue s.strobed = false) :
    execUsStrobe s = .next s.strobed := by
  rcases internalClockCheck_cases s.strobed with ⟨hdue, -⟩ | ⟨-, he⟩
  · simp [h] at hdue
  · exact congrArg Host.Outcome.next he

theorem clockGateOpen_iff (g : ClockGate) (tp : Transport) : clockGateOpen g tp = true ↔
    (g = .modeInternal ∧ tp.mode = .internal) ∨ (g = .notRunning ∧ tp.running = false) := by
  cases g <;> simp [clockGateOpen]

theorem internalTickDue_iff (s : State) : internalTickDue s = true ↔
    clockGateOpen s.params.clockGate s.tp = true ∧ s.tp.bpm ≠ 0 ∧
      tickInterval s.tp.bpm ≤ elapsedUs s.tb := by
  simp only [internalTickDue, Bool.and_eq_true, bne_iff_ne, decide_eq_true_eq, and_assoc]

/-- A write of the time base changes the time base alone. -/
theorem setTimeBase_onlyTimeBase (s : State) (x : TimeBase) : OnlyTimeBase s { s with tb := x } :=
  ⟨fun _ => rfl, fun _ => rfl, fun _ => rfl, rfl, rfl, rfl, rfl, rfl, rfl⟩

/-- Settles O29: `due` is the model's test on the strobed machine. -/
theorem strobeRunsClockCheck : Obligations.StrobeRunsClockCheck := by
  intro s now due
  have hdue : internalTickDue s.strobed = true ↔ due := by
    rw [internalTickDue_iff, clockGateOpen_iff]
    rfl
  refine ⟨fun h => ⟨s.strobed, ?_, setTimeBase_onlyTimeBase s _, rfl⟩, fun h => ?_⟩
  · exact execUsStrobe_of_not_due (eq_false_of_ne_true (mt hdue.mp h))
  · exact execUsStrobe_of_due (hdue.mpr h)

/-! ## The strobes to the next tick -/

theorem elapsedUs_strobed (s : State) : elapsedUs s.strobed.tb = (elapsedUs s.tb + 1) % 2 ^ 32 := by
  have hcomm : s.tb.nowUs + 1 - s.tb.lastTickUs = s.tb.nowUs - s.tb.lastTickUs + 1 := by bv_omega
  exact (congrArg BitVec.toNat hcomm).trans (BitVec.toNat_add _ _)

/-- `interval` is at least 1 for every tempo (42_transport.md R138), and far below the wrap (R142). -/
theorem tickInterval_bounds {bpm : BitVec 16} (h : bpm ≠ 0) :
    1 ≤ tickInterval bpm ∧ tickInterval bpm ≤ 15000000 := by
  have hlt := bpm.isLt
  have hpos : bpm.toNat ≠ 0 := fun h0 => h (BitVec.eq_of_toNat_eq h0)
  rw [tickInterval, tickConstUs_eq]
  exact ⟨Nat.div_pos (by omega) (by omega), Nat.div_le_self _ _⟩

theorem strobesToTick_pos (i e : Nat) : 1 ≤ strobesToTick i e := by
  unfold strobesToTick
  split
  · omega
  · split <;> omega

theorem strobesToTick_of_due {i e : Nat} (hi : 1 ≤ i) (he : e < 2 ^ 32) (h : i ≤ (e + 1) % 2 ^ 32) :
    strobesToTick i e = 1 := by
  unfold strobesToTick
  split
  · omega
  · split <;> omega

/-- A strobe without a tick leaves one strobe less, across the wrap too. -/
theorem strobesToTick_of_not_due {i e : Nat} (hi : 1 ≤ i) (hle : i ≤ 15000000) (he : e < 2 ^ 32)
    (h : (e + 1) % 2 ^ 32 < i) : strobesToTick i e = strobesToTick i ((e + 1) % 2 ^ 32) + 1 := by
  have hnext : strobesToTick i ((e + 1) % 2 ^ 32) = i - (e + 1) % 2 ^ 32 := by
    rw [strobesToTick, if_neg (by omega), if_neg (by omega)]
  rw [hnext]
  unfold strobesToTick
  split
  · omega
  · split <;> omega

/-- The gate is open and the tempo is set (42_transport.md R136). -/
structure InternalClockRuns (s : State) : Prop where
  gate : clockGateOpen s.params.clockGate s.tp = true
  tempo : s.tp.bpm ≠ 0

/-- The strobes from `s` up to and with the next internal tick. -/
def strobesLeft (s : State) : Nat := strobesToTick (tickInterval s.tp.bpm) (elapsedUs s.tb)

/-- The clock check of a running clock looks at the elapsed time alone. -/
theorem InternalClockRuns.due_iff {s : State} (h : InternalClockRuns s) :
    internalTickDue s.strobed = true ↔ tickInterval s.tp.bpm ≤ (elapsedUs s.tb + 1) % 2 ^ 32 := by
  rw [internalTickDue_iff, elapsedUs_strobed]
  exact ⟨fun ⟨_, _, hle⟩ => hle, fun hle => ⟨h.gate, h.tempo, hle⟩⟩

/-- A strobe of a running clock ticks when it is the last one left; otherwise one strobe less is left. -/
theorem InternalClockRuns.strobe_cases {s : State} (h : InternalClockRuns s) :
    (strobesLeft s = 1 ∧ internalTickDue s.strobed = true) ∨
      (strobesLeft s = strobesLeft s.strobed + 1 ∧ internalTickDue s.strobed = false) := by
  obtain ⟨hpos, hle⟩ := tickInterval_bounds h.tempo
  have helapsed : elapsedUs s.tb < 2 ^ 32 := BitVec.isLt _
  cases hdue : internalTickDue s.strobed with
  | true => exact .inl ⟨strobesToTick_of_due hpos helapsed (h.due_iff.mp hdue), rfl⟩
  | false =>
    have hlt : (elapsedUs s.tb + 1) % 2 ^ 32 < tickInterval s.tp.bpm :=
      Nat.lt_of_not_le fun hge => by simp [h.due_iff.mpr hge] at hdue
    refine .inr ⟨?_, rfl⟩
    rw [strobesLeft, strobesLeft, elapsedUs_strobed]
    exact strobesToTick_of_not_due hpos hle helapsed hlt

/-! ## Runs of strobes -/

/-- A strobe that is not the last one left is silent, and any run goes on from there. -/
theorem InternalClockRuns.silent_strobe {s : State} (h : InternalClockRuns s) (hmore : strobesLeft s ≠ 1)
    (xs : List Input) : ∃ u, InternalClockRuns u ∧ strobesLeft s = strobesLeft u + 1 ∧
      u.tb.nowUs = s.tb.nowUs + 1 ∧ ∀ n t, RunsTicking n xs u t → RunsTicking n (.usStrobe :: xs) s t := by
  have htaken : InternalClockRuns (s.takeInput xs) := ⟨h.gate, h.tempo⟩
  rcases htaken.strobe_cases with ⟨hone, -⟩ | ⟨hleft, hdue⟩
  · exact absurd hone hmore
  · refine ⟨(s.takeInput xs).strobed, ⟨h.gate, h.tempo⟩, hleft, rfl, fun n t hrun => ?_⟩
    have hsilent := RunsTicking.cons (x := .usStrobe) (execUsStrobe_of_not_due hdue) hrun
    rwa [State.strobed, State.takeInput_out, tickCount_nil, Nat.zero_add] at hsilent

/-- All strobes but the last one left are silent. -/
theorem InternalClockRuns.silent_strobes {k : Nat} {s : State} (h : InternalClockRuns s)
    (hk : strobesLeft s = k + 1) (xs : List Input) :
    ∃ u, InternalClockRuns u ∧ strobesLeft u = 1 ∧ u.tb.nowUs = s.tb.nowUs + BitVec.ofNat 32 k ∧
      ∀ n t, RunsTicking n xs u t → RunsTicking n (List.replicate k .usStrobe ++ xs) s t := by
  induction k generalizing s with
  | zero => exact ⟨s, h, hk, by simp, fun _ _ hrun => hrun⟩
  | succ k ih =>
    obtain ⟨u, hu, hleft, hnow, hfirst⟩ := h.silent_strobe (by omega) (List.replicate k .usStrobe ++ xs)
    obtain ⟨w, hw, hone, hnow', hrest⟩ := ih hu (by omega)
    refine ⟨w, hw, hone, ?_, fun n t hrun => hfirst n t (hrest n t hrun)⟩
    rw [hnow', hnow, Nat.add_comm k 1, BitVec.ofNat_add, ← BitVec.add_assoc]
    rfl

/-- The last strobe left ticks, and `lastTickUs` becomes the time of it. -/
theorem InternalClockRuns.last_strobe {s : State} (h : InternalClockRuns s) (hone : strobesLeft s = 1) :
    ∃ t, RunsTicking 1 [.usStrobe] s t ∧ t.tb.nowUs = s.tb.nowUs + 1 ∧ t.tb.lastTickUs = s.tb.nowUs + 1 := by
  have htaken : InternalClockRuns (s.takeInput []) := ⟨h.gate, h.tempo⟩
  rcases htaken.strobe_cases with ⟨-, hdue⟩ | ⟨hleft, -⟩
  · have hrun := RunsTicking.cons (x := .usStrobe) (execUsStrobe_of_due hdue) (.nil _)
    rw [tickCount_tick] at hrun
    refine ⟨_, hrun, ?_⟩
    rw [State.present_tb, tick_tb]
    exact ⟨rfl, rfl⟩
  · have hpos : 1 ≤ strobesLeft (s.takeInput []).strobed := strobesToTick_pos _ _
    exact absurd (hleft.symm.trans hone) (by omega)

/-- One strobe short of the strobes left there is no tick. -/
theorem InternalClockRuns.strobes_silent {k : Nat} {s : State} (h : InternalClockRuns s)
    (hk : strobesLeft s = k + 1) : ∃ t, RunsTicking 0 (List.replicate k .usStrobe) s t := by
  obtain ⟨u, -, -, -, hrest⟩ := h.silent_strobes hk []
  have hrun := hrest 0 _ (.nil u)
  rw [List.append_nil] at hrun
  exact ⟨_, hrun⟩

/-- With the last of the strobes left comes the one tick. -/
theorem InternalClockRuns.strobes_tick {k : Nat} {s : State} (h : InternalClockRuns s)
    (hk : strobesLeft s = k + 1) :
    ∃ t, RunsTicking 1 (List.replicate (k + 1) .usStrobe) s t ∧ t.tb.nowUs = t.tb.lastTickUs ∧
      t.tb.nowUs = s.tb.nowUs + BitVec.ofNat 32 (k + 1) := by
  obtain ⟨u, hu, hone, hnow, hrest⟩ := h.silent_strobes hk [.usStrobe]
  obtain ⟨t, hrun, htime, hlast⟩ := hu.last_strobe hone
  rw [List.replicate_succ', BitVec.ofNat_add, ← BitVec.add_assoc, ← hnow]
  exact ⟨t, hrest 1 t hrun, htime.trans hlast.symm, htime⟩

/-- Settles O30: the three clauses on `n` are read off `strobesToTick`, the two on runs are `strobes_silent`
and `strobes_tick`. -/
theorem internalTicksAreOneIntervalApart : Obligations.InternalTicksAreOneIntervalApart := by
  intro s hgate hbpm interval elapsed n
  obtain ⟨hpos, hle⟩ : 1 ≤ interval ∧ interval ≤ 15000000 := tickInterval_bounds hbpm
  have hleft : strobesLeft s = n - 1 + 1 := (Nat.sub_add_cancel (strobesToTick_pos interval elapsed)).symm
  have hclock : InternalClockRuns s := ⟨hgate, hbpm⟩
  obtain ⟨t, rs, hrun, hticks⟩ := hclock.strobes_silent hleft
  obtain ⟨t', ⟨rs', hrun', hticks'⟩, hlast, hnow⟩ := hclock.strobes_tick hleft
  rw [← hleft] at hrun' hnow
  refine ⟨fun h => ?_, fun h => ?_, fun h => if_pos h, ⟨t, rs, hrun, hticks⟩,
    ⟨t', rs', hrun', hticks', hlast, hnow⟩⟩
  · have hzero : elapsed = 0 := by simp only [elapsed, h, BitVec.sub_self, BitVec.toNat_zero]
    simp only [n, hzero, strobesToTick]
    rw [if_neg (by omega), if_neg (by omega), Nat.sub_zero]
  · refine ⟨strobesToTick_pos _ _, ?_⟩
    simp only [n, strobesToTick]
    rw [if_neg (by omega)]
    split <;> omega

end Sys2Proof.Machine
end

section
/-! PROOFS. Bounds on rounded results (43_voice.md R153, R159, R162). Rounding does not pass a magnitude of
binary32: an exact result that is at most such a magnitude is rounded to at most it (`roundMag_le_of_le`), and one
whose significant bits fit is not rounded at all (`magUnits_roundMag_of_dvd`). Every bound on a sum or a product is
then a comparison of exact units. -/

namespace Sys2Proof.Machine

/-! ## The order of magnitudes -/

/-- One unit in the last place up: the significand moves on by one, across the end of a binade too. -/
theorem magUnits_lt_succ (m : Nat) : magUnits m < magUnits (m + 1) := by
  have hsplit : ∃ h q, m = h * 0x800000 + q ∧ q + 1 ≤ 2 ^ 24 ∧ (h = 0 ∨ 2 ^ 23 ≤ q) := by
    by_cases hm : m < 2 ^ 24
    · exact ⟨0, m, by omega, by omega, .inl rfl⟩
    · exact ⟨m / 0x800000 - 1, m % 0x800000 + 0x800000, by omega, by omega, by omega⟩
  obtain ⟨h, q, rfl, hq, hnormal⟩ := hsplit
  rw [Nat.add_assoc, magUnits_significand (by omega) hnormal, magUnits_significand hq (by omega)]
  exact Nat.mul_lt_mul_of_pos_right (Nat.lt_succ_self q) (by positivity)

theorem magUnits_strictMono : StrictMono magUnits := strictMono_nat_of_lt_succ magUnits_lt_succ

theorem f32units_le_magUnits {a : F32} {m : Nat} (h : f32mag a ≤ m) : f32units a ≤ magUnits m :=
  magUnits_strictMono.monotone h

/-! ## Rounding does not pass a magnitude -/

theorem roundShift_le_of_le_mul {n k j : Nat} (h : n ≤ j * 2 ^ k) : roundShift n k ≤ j := by
  have hn : n / 2 ^ k * 2 ^ k + n % 2 ^ k = n := Nat.div_add_mod' n (2 ^ k)
  have hpos : 0 < 2 ^ k := by positivity
  have hq : n / 2 ^ k ≤ j := Nat.div_le_of_le_mul (by rwa [mul_comm])
  have hcases := roundShift_cases n k
  rcases Nat.lt_or_eq_of_le hq with hlt | rfl <;> omega

/-- In units of the last place, a magnitude that is no multiple of it lies below the binade of `n`. -/
theorem roundMag_le_of_le {n g m : Nat} (h : n ≤ magUnits m * 2 ^ g) : roundMag n g ≤ m := by
  have hg := le_droppedBits n g
  have hscale (x : Nat) : 2 ^ (droppedBits n g - g) * x * 2 ^ g = x * 2 ^ droppedBits n g := by
    rw [mul_comm _ x, mul_assoc, ← pow_add, Nat.sub_add_cancel hg]
  have hmultiple : 2 ^ (droppedBits n g - g) ∣ magUnits m := by
    rcases droppedBits_eq_or_le n g with hk | hbinade
    · simp [hk]
    refine (magUnits_dvd_or_lt m _).resolve_right fun hsmall => ?_
    have hbelow : magUnits m * 2 ^ g < 2 ^ (droppedBits n g - g) * 2 ^ 23 * 2 ^ g :=
      Nat.mul_lt_mul_of_pos_right (by rwa [mul_comm (2 ^ (droppedBits n g - g))]) (by positivity)
    rw [hscale] at hbelow
    omega
  obtain ⟨j, hj⟩ := hmultiple
  rw [hj, hscale] at h
  have hround := roundShift_le_of_le_mul h
  have hnormal : droppedBits n g - g = 0 ∨ 2 ^ 23 ≤ roundShift n (droppedBits n g) :=
    (droppedBits_eq_or_le n g).imp (by omega) le_roundShift
  have hunits : magUnits ((droppedBits n g - g) * 0x800000 + roundShift n (droppedBits n g)) ≤ magUnits m := by
    rw [magUnits_significand (roundShift_le (lt_two_pow_droppedBits n g)) hnormal, hj, mul_comm]
    exact Nat.mul_le_mul_left _ hround
  exact (Nat.min_le_left _ _).trans (magUnits_strictMono.le_iff_le.mp hunits)

/-! ## Results that are not rounded -/

theorem roundShift_mul_of_dvd {n k : Nat} (h : 2 ^ k ∣ n) : roundShift n k * 2 ^ k = n := by
  have hpos : 0 < 2 ^ k := by positivity
  have hmod := Nat.mod_eq_zero_of_dvd h
  have hdiv : roundShift n k = n / 2 ^ k := by
    have := roundShift_cases n k
    omega
  rw [hdiv, Nat.div_mul_cancel h]

/-- No bit of a significand of 24 bits is dropped. -/
theorem droppedBits_le {a h g : Nat} (ha : a < 2 ^ 24) (hgh : g ≤ h) : droppedBits (a * 2 ^ h) g ≤ h := by
  by_cases hzero : a * 2 ^ h = 0
  · rw [hzero]
    simpa [droppedBits] using hgh
  have hlog : Nat.log2 (a * 2 ^ h) < 24 + h := by
    rw [Nat.log2_lt hzero, pow_add]
    exact Nat.mul_lt_mul_of_pos_right ha (by positivity)
  unfold droppedBits
  omega

theorem magUnits_roundMag_of_dvd {a h g : Nat} (ha : a < 2 ^ 24) (hgh : g ≤ h)
    (hfin : roundMag (a * 2 ^ h) g < 0x7F800000) :
    magUnits (roundMag (a * 2 ^ h) g) * 2 ^ g = a * 2 ^ h := by
  rw [magUnits_roundMag hfin]
  exact roundShift_mul_of_dvd (Dvd.dvd.mul_left (pow_dvd_pow 2 (droppedBits_le ha hgh)) a)

/-! ## Sums and products -/

theorem f32isFinite_of_mag_le {a : F32} {m : Nat} (h : f32mag a ≤ m) (hm : m < 0x7F800000) :
    f32isFinite a = true := (f32isFinite_iff a).mpr (Nat.lt_of_le_of_lt h hm)

theorem roundMag_lt_two_pow (n g : Nat) : roundMag n g < 0x80000000 :=
  Nat.lt_of_le_of_lt (roundMag_le n g) (by decide)

theorem natAbs_withSign (s : Bool) (n : Nat) : (withSign s n).natAbs = n := by cases s <;> simp

theorem natAbs_f32int (a : F32) : (f32int a).natAbs = f32units a := by
  rw [f32int_eq_withSign, natAbs_withSign]

theorem f32mag_f32add_le {a b : F32} {m : Nat} (ha : f32isFinite a = true) (hb : f32isFinite b = true)
    (h : f32units a + f32units b ≤ magUnits m) : f32mag (f32add a b) ≤ m := by
  obtain ⟨s, n, hexact, hadd⟩ := f32add_of_isFinite ha hb
  rw [hadd, f32mag_f32make s (roundMag_lt_two_pow n 0)]
  refine roundMag_le_of_le ?_
  rw [pow_zero, mul_one]
  calc n = (f32int a + f32int b).natAbs := by rw [hexact, natAbs_withSign]
    _ ≤ (f32int a).natAbs + (f32int b).natAbs := Int.natAbs_add_le _ _
    _ ≤ magUnits m := by rwa [natAbs_f32int, natAbs_f32int]

/-- The product of finite operands with its sign and its exact units. -/
theorem f32mul_eq {a b : F32} (ha : f32isFinite a = true) (hb : f32isFinite b = true) :
    f32mul a b = f32make (f32sign a != f32sign b) (roundMag (f32units a * f32units b) 149) := by
  simp [f32mul, not_isNaN_of_isFinite, not_isInf_of_isFinite, ha, hb]

theorem f32mag_f32mul {a b : F32} (ha : f32isFinite a = true) (hb : f32isFinite b = true) :
    f32mag (f32mul a b) = roundMag (f32units a * f32units b) 149 := by
  rw [f32mul_eq ha hb, f32mag_f32make _ (roundMag_lt_two_pow _ _)]

theorem f32sign_f32mul {a b : F32} (ha : f32isFinite a = true) (hb : f32isFinite b = true) :
    f32sign (f32mul a b) = (f32sign a != f32sign b) := by
  rw [f32mul_eq ha hb, f32sign_f32make _ (roundMag_lt_two_pow _ _)]

theorem f32mag_f32mul_le {a b : F32} {m : Nat} (ha : f32isFinite a = true) (hb : f32isFinite b = true)
    (h : f32units a * f32units b ≤ magUnits m * 2 ^ 149) : f32mag (f32mul a b) ≤ m := by
  rw [f32mag_f32mul ha hb]
  exact roundMag_le_of_le h

/-- 1.0 is 2^149 units. -/
theorem magUnits_one : magUnits 0x3F800000 = 2 ^ 149 := by decide

/-- A factor of at most 1.0 (a gain, a pan coefficient) does not make a magnitude larger. -/
theorem f32mag_f32mul_le_left {a b : F32} (ha : f32isFinite a = true) (hb : f32mag b ≤ 0x3F800000) :
    f32mag (f32mul a b) ≤ f32mag a :=
  f32mag_f32mul_le ha (f32isFinite_of_mag_le hb (by decide))
    (Nat.mul_le_mul_left _ (magUnits_one ▸ f32units_le_magUnits hb))

theorem f32mag_le_toNat (a : F32) : f32mag a ≤ a.toNat := Nat.mod_le _ _

/-! ## A stored sample -/

theorem natAbs_toInt_sample (x : Sample) : x.toInt.natAbs ≤ 2 ^ 15 := by
  have hle := BitVec.toInt_le (x := x)
  have hge := BitVec.le_toInt x
  omega

/-- A sample is exact as an integer in binary32: |s| units of 2^149 units, at most 32768.0. -/
theorem i2f_sample (x : Sample) : f32isFinite (i2f x.toInt) = true ∧
    f32sign (i2f x.toInt) = decide (x.toInt < 0) ∧ f32units (i2f x.toInt) = x.toInt.natAbs * 2 ^ 149 := by
  have habs := natAbs_toInt_sample x
  have hmag : f32mag (i2f x.toInt) = roundMag (x.toInt.natAbs * 2 ^ 149) 0 :=
    f32mag_f32make _ (roundMag_lt_two_pow _ _)
  have hle : roundMag (x.toInt.natAbs * 2 ^ 149) 0 ≤ 0x47000000 := by
    refine roundMag_le_of_le ((Nat.mul_le_mul_right _ habs).trans ?_)
    decide
  have hexact := magUnits_roundMag_of_dvd (a := x.toInt.natAbs) (h := 149) (g := 0) (by omega) (by omega)
    (by omega)
  rw [pow_zero, mul_one] at hexact
  exact ⟨f32isFinite_of_mag_le (hmag ▸ hle) (by decide), f32sign_f32make _ (roundMag_lt_two_pow _ _),
    by rw [f32units_eq_magUnits, hmag, hexact]⟩

theorem units_sampleScaleInverse : f32units sampleScaleInverse = 2 ^ 134 := by decide

/-- The product with 2^-15 is exact as well, and at most 1.0. -/
theorem normalize_exact (x : Sample) : f32mag (normalize x) ≤ 0x3F800000 ∧
    f32sign (normalize x) = decide (x.toInt < 0) ∧ f32units (normalize x) = x.toInt.natAbs * 2 ^ 134 := by
  obtain ⟨hfin, hsign, hunits⟩ := i2f_sample x
  have hscale : f32isFinite sampleScaleInverse = true := by decide
  have hprod : f32units (i2f x.toInt) * f32units sampleScaleInverse = x.toInt.natAbs * 2 ^ 283 := by
    rw [hunits, units_sampleScaleInverse, mul_assoc, ← pow_add]
  have hle : f32mag (normalize x) ≤ 0x3F800000 := by
    refine f32mag_f32mul_le hfin hscale ?_
    rw [hprod, magUnits_one]
    exact (Nat.mul_le_mul_right _ (natAbs_toInt_sample x)).trans_eq (by rw [← pow_add, ← pow_add])
  have hmag : f32mag (normalize x) = roundMag (x.toInt.natAbs * 2 ^ 283) 149 := by
    rw [normalize, f32mag_f32mul hfin hscale, hprod]
  refine ⟨hle, ?_, ?_⟩
  · have hplus : f32sign sampleScaleInverse = false := by decide
    rw [normalize, f32sign_f32mul hfin hscale, hsign, hplus, Bool.bne_false]
  · have hexact := magUnits_roundMag_of_dvd (a := x.toInt.natAbs) (h := 283) (g := 149)
      (by have := natAbs_toInt_sample x; omega) (by omega) (by omega)
    rw [← hmag, ← f32units_eq_magUnits] at hexact
    refine Nat.eq_of_mul_eq_mul_right (show 0 < 2 ^ 149 by positivity) (hexact.trans ?_)
    rw [mul_assoc, ← pow_add]

/-- Settles O56: a magnitude of at most 1.0 is finite, and the units are `normalize_exact`'s. -/
theorem normalizationIsExact : Obligations.NormalizationIsExact := by
  intro x
  obtain ⟨hle, hsign, hunits⟩ := normalize_exact x
  refine ⟨f32isFinite_of_mag_le hle (by decide), ?_⟩
  have hscaled := withSign_mul (decide (x.toInt < 0)) false x.toInt.natAbs (2 ^ 134)
  rw [withSign_natAbs, Bool.bne_false, withSign_false] at hscaled
  rw [f32int_eq_withSign, hsign, hunits, ← hscaled, Nat.cast_pow, Nat.cast_ofNat]

/-! ## A tail times `DECAY_FACTOR` -/

theorem units_decayFactor : f32units decayFactor = 0xFD70A4 * 2 ^ 125 := by decide

/-- A normal magnitude's predecessor is at most one unit of its last place below it. -/
theorem le_magUnits_pred {h q : Nat} (hlead : 2 ^ 23 ≤ q) (hq : q < 2 ^ 24) :
    (q - 1) * 2 ^ h ≤ magUnits (h * 0x800000 + q - 1) := by
  by_cases hsame : h = 0 ∨ 2 ^ 23 ≤ q - 1
  · rw [Nat.add_sub_assoc (by omega), magUnits_significand (by omega) hsame]
  obtain ⟨h, rfl⟩ : ∃ k, h = k + 1 := ⟨h - 1, by omega⟩
  obtain rfl : q = 2 ^ 23 := by omega
  rw [show (h + 1) * 0x800000 + 2 ^ 23 - 1 = h * 0x800000 + (2 ^ 24 - 1) by omega,
    magUnits_significand (by omega) (.inr (by omega)), pow_succ]
  omega

/-- `DECAY_FACTOR` is below 1.0 by 167772 / 2^24, and a unit in the last place of a normal magnitude is at most
its 2^23rd part. -/
theorem units_mul_decayFactor_le {m : Nat} (hm : 0x800000 ≤ m) :
    magUnits m * f32units decayFactor ≤ magUnits (m - 1) * 2 ^ 149 := by
  obtain ⟨h, q, rfl, hlead, hq⟩ : ∃ h q, m = h * 0x800000 + q ∧ 2 ^ 23 ≤ q ∧ q < 2 ^ 24 :=
    ⟨m / 0x800000 - 1, m % 0x800000 + 0x800000, by omega, by omega, by omega⟩
  rw [magUnits_significand hq.le (.inr hlead), units_decayFactor]
  calc q * 2 ^ h * (0xFD70A4 * 2 ^ 125) = q * 0xFD70A4 * (2 ^ h * 2 ^ 125) := by ring
    _ ≤ (q - 1) * 2 ^ 24 * (2 ^ h * 2 ^ 125) := Nat.mul_le_mul_right _ (by omega)
    _ = (q - 1) * 2 ^ h * 2 ^ 149 := by ring
    _ ≤ magUnits (h * 0x800000 + q - 1) * 2 ^ 149 := Nat.mul_le_mul_right _ (le_magUnits_pred hlead hq)

/-- Settles O52: the exact product is at most the next smaller magnitude, and `DECAY_FACTOR` is positive. -/
theorem decayFactorShrinksNormalTail : Obligations.DecayFactorShrinksNormalTail := by
  intro d hd hnormal
  have hfactor : f32isFinite decayFactor = true := by decide
  have hplus : f32sign decayFactor = false := by decide
  refine ⟨?_, by rw [f32sign_f32mul hd hfactor, hplus, Bool.bne_false]⟩
  have hle := f32mag_f32mul_le hd hfactor (units_mul_decayFactor_le hnormal)
  omega

end Sys2Proof.Machine
end

section
/-! PROOFS. The voice engine (43_voice.md R150 to R157). `TRIGGER` and `VoiceSample` are split along their branches
once. A sample request is a fold of turns, each of which reads and writes its own voice only: so every turn sees
its voice as it was before the request (`State.sampled`), and the sums are a fold over the audible voices. -/

namespace Sys2Proof.Machine

/-! ## TRIGGER -/

theorem triggerVoice_of_disabled {vc : Voice} (h : vc.enabled = false) (x : Sample) :
    triggerVoice vc x = (vc, .ignored) := by
  simp [triggerVoice, h]

theorem triggerVoice_of_idle {vc : Voice} (h : vc.enabled = true) (hidle : vc.isPlaying = false) (x : Sample) :
    triggerVoice vc x = ({ vc with isPlaying := true }, .start) := by
  simp [triggerVoice, h, hidle]

theorem triggerVoice_of_playing {vc : Voice} (h : vc.enabled = true) (hplay : vc.isPlaying = true) (x : Sample) :
    triggerVoice vc x = ({ vc with
      decayAmplitude := f32mul (normalize x) vc.gain
      decayActive := true
      playbackPosition := 0 }, .retrigger) := by
  simp [triggerVoice, h, hplay]

/-- A trigger's frame, with the voice and the record that `triggerVoice` answers. -/
theorem trigger_effect {s : State} {v : VoiceId} {vc : Voice} {k : TrigKind}
    (h : triggerVoice (s.voice v) (s.currentSample v) = (vc, k)) :
    OnlyVoiceAndRecords v s (s.trigger v) ∧ (s.trigger v).voice v = vc ∧
      (s.trigger v).out = s.out ++ [.trig v k] := by
  obtain ⟨hparams, -, -, hepoch, htp, htb, hinputs, hread⟩ := trigger_only s v
  exact ⟨⟨track_trigger s v, fun u hu => voice_trigger_other s v u hu, fun _ => rfl, htp, htb, hparams, hepoch,
    hinputs, hread⟩, by rw [voice_trigger_self, h], by rw [trigger_out, h]⟩

theorem normalize_eq (x : Sample) : normalize x = f32mul (i2f x.toInt) 0x38000000 := by
  rw [normalize, sampleScaleInverse_eq]

/-- Settles O48: the three branches of `Trigger`. -/
theorem triggerIgnoresStartsOrRetriggers : Obligations.TriggerIgnoresStartsOrRetriggers := by
  refine fun s v => ⟨fun hoff => ?_, fun hon hidle => ?_, fun hon hplay => ?_⟩
  · change Host.Outcome.next (s.trigger v) = _
    rw [State.trigger, triggerVoice_of_disabled hoff, setVoice_voice]
    rfl
  · exact ⟨_, rfl, trigger_effect (triggerVoice_of_idle hon hidle _)⟩
  · refine ⟨_, rfl, trigger_effect (.trans (triggerVoice_of_playing hon hplay _) ?_)⟩
    rw [normalize_eq]
    rfl

/-! ## VoiceSample -/

/-- The tail runs on: it is active and above the floor (43_voice.md R152). -/
def tailRuns (floor : F32) (vc : Voice) : Bool := vc.decayActive && f32gt (f32abs vc.decayAmplitude) floor

/-- A voice whose tail has decayed once, or has ended. -/
def decayedVoice (floor : F32) (vc : Voice) : Voice :=
  { vc with
    decayAmplitude := if tailRuns floor vc then f32mul vc.decayAmplitude decayFactor else vc.decayAmplitude
    decayActive := tailRuns floor vc }

/-- What a tail adds to the accumulator. -/
def tailValue (floor : F32) (vc : Voice) : F32 :=
  if tailRuns floor vc then f32add f32zero (f32mul vc.decayAmplitude decayFactor) else f32zero

/-- The accumulator of a playing voice. -/
def noteValue (floor : F32) (vc : Voice) (x : Sample) : F32 :=
  f32mul (f32add (tailValue floor vc) (normalize x)) vc.gain

theorem decayStep_eq (floor : F32) (vc : Voice) :
    decayStep floor vc = (decayedVoice floor vc, tailValue floor vc) := by
  unfold decayStep decayedVoice tailValue tailRuns
  obtain ⟨_, _, _, _, _, _, d, active⟩ := vc
  cases active
  · rfl
  · cases f32gt (f32abs d) floor <;> simp

theorem voiceSample_of_disabled (floor : F32) {vc : Voice} (h : vc.enabled = false) (x : Sample) :
    voiceSample floor vc x = (vc, false, f32zero) := by
  simp [voiceSample, h]

theorem voiceSample_of_idle (floor : F32) {vc : Voice} (h : vc.enabled = true) (hidle : vc.isPlaying = false)
    (x : Sample) : voiceSample floor vc x = (decayedVoice floor vc, false, tailValue floor vc) := by
  simp [voiceSample, h, hidle, decayStep_eq]

theorem voiceSample_of_playing (floor : F32) {vc : Voice} (h : vc.enabled = true) (hplay : vc.isPlaying = true)
    (hmore : vc.playbackPosition.toNat + 1 ≠ vc.length.toNat) (x : Sample) :
    voiceSample floor vc x = ({ decayedVoice floor vc with
      playbackPosition := BitVec.ofNat 20 (vc.playbackPosition.toNat + 1) }, true, noteValue floor vc x) := by
  simp [voiceSample, h, hplay, decayStep_eq, playStep, decayedVoice, hmore, noteValue]

/-- The note's last value overwrites the tail under it (43_voice.md R156). -/
theorem voiceSample_of_last (floor : F32) {vc : Voice} (h : vc.enabled = true) (hplay : vc.isPlaying = true)
    (hlast : vc.playbackPosition.toNat + 1 = vc.length.toNat) (x : Sample) :
    voiceSample floor vc x = ({ vc with
      isPlaying := false
      decayAmplitude := noteValue floor vc x
      decayActive := true
      playbackPosition := 0 }, true, noteValue floor vc x) := by
  simp [voiceSample, h, hplay, decayStep_eq, playStep, decayedVoice, hlast, noteValue]

/-- Settles O49: the branches of `VoiceSample`, the constants and the tail written out. -/
theorem voiceSampleDecaysThenPlays : Obligations.VoiceSampleDecaysThenPlays := by
  intro floor vc x runs d tail a decayed
  have hnote : noteValue floor vc x = a := by rw [noteValue, normalize_eq]; rfl
  refine ⟨fun hoff => voiceSample_of_disabled floor hoff x,
    fun hon hidle => voiceSample_of_idle floor hon hidle x, fun hon hplay hmore => ?_, fun hon hplay hlast => ?_⟩
  · rw [voiceSample_of_playing floor hon hplay hmore, hnote, BitVec.ofNat_add, BitVec.ofNat_toNat,
      BitVec.setWidth_eq]
    rfl
  · rw [voiceSample_of_last floor hon hplay hlast, hnote]

/-- A voice is heard when it is enabled and playing (43_voice.md R154). -/
theorem voiceSample_audible (floor : F32) (vc : Voice) (x : Sample) :
    (voiceSample floor vc x).2.1 = (vc.enabled && vc.isPlaying) := by
  unfold voiceSample
  dsimp only
  split
  · next hon =>
    split
    · next hplay => simp [hon, hplay]
    · next hidle => simp [hidle]
  · next hoff => simp [hoff]

@[simp] theorem decayStep_panIndex (floor : F32) (vc : Voice) : (decayStep floor vc).1.panIndex = vc.panIndex := by
  rw [decayStep_eq]
  rfl

@[simp] theorem playStep_panIndex (vc : Voice) (acc : F32) (x : Sample) :
    (playStep vc acc x).1.panIndex = vc.panIndex := by
  unfold playStep
  dsimp only
  split <;> rfl

@[simp] theorem voiceSample_panIndex (floor : F32) (vc : Voice) (x : Sample) :
    (voiceSample floor vc x).1.panIndex = vc.panIndex := by
  unfold voiceSample
  dsimp only
  split
  · split
    · rw [playStep_panIndex, decayStep_panIndex]
    · rw [decayStep_panIndex]
  · rfl

/-! ## One voice's turn -/

/-- What `VoiceSample` makes of voice `v` of this state. -/
def State.sampled (s : State) (v : VoiceId) : Voice × Bool × F32 :=
  voiceSample s.params.decayFloor (s.voice v) (s.currentSample v)

/-- Is voice `v` heard in a sample request? -/
def State.audible (s : State) (v : VoiceId) : Bool := (s.sampled v).2.1

/-- What voice `v` gives to the left channel. -/
def State.pannedLeft (s : State) (v : VoiceId) : F32 :=
  f32mul (s.sampled v).2.2 (panLAt s.params (s.voice v).panIndex)

/-- What voice `v` gives to the right channel. -/
def State.pannedRight (s : State) (v : VoiceId) : F32 :=
  f32mul (s.sampled v).2.2 (panRAt s.params (s.voice v).panIndex)

/-- The sums after voice `v`'s turn. -/
def State.mixIn (s : State) (x : Mix) (v : VoiceId) : Mix :=
  if s.audible v then { l := f32add x.l (s.pannedLeft v), r := f32add x.r (s.pannedRight v) } else x

theorem renderVoice_eq (m : State × Mix) (v : VoiceId) :
    State.renderVoice m v = (m.1.setVoice v (m.1.sampled v).1, m.1.mixIn m.2 v) := by
  unfold State.renderVoice State.mixIn State.audible State.pannedLeft State.pannedRight State.sampled
  simp only [voiceSample_panIndex]
  split <;> rfl

/-- A voice's turn does not touch what another voice's turn reads. -/
theorem sampled_setVoice_other {u v : VoiceId} (h : u ≠ v) (s : State) (vc : Voice) :
    (s.setVoice v vc).sampled u = s.sampled u := by
  have hvoice := s.voice_setVoice_other v u vc h
  rw [State.sampled, State.sampled, hvoice, currentSample_congr hvoice rfl rfl]
  rfl

theorem mixIn_setVoice_other {u v : VoiceId} (h : u ≠ v) (s : State) (vc : Voice) (x : Mix) :
    (s.setVoice v vc).mixIn x u = s.mixIn x u := by
  unfold State.mixIn State.audible State.pannedLeft State.pannedRight
  rw [sampled_setVoice_other h, State.voice_setVoice_other _ _ _ _ h, State.setVoice_params]

/-! ## All turns -/

theorem voice_foldl_renderVoice {l : List VoiceId} (hl : l.Nodup) (m : State × Mix) (u : VoiceId) :
    (l.foldl State.renderVoice m).1.voice u = if u ∈ l then (m.1.sampled u).1 else m.1.voice u := by
  induction l generalizing m with
  | nil => simp
  | cons v l ih =>
    obtain ⟨hv, hl⟩ := List.nodup_cons.mp hl
    rw [List.foldl_cons, ih hl, renderVoice_eq]
    by_cases huv : u = v
    · subst huv
      simp [hv]
    · simp [huv, sampled_setVoice_other huv, State.voice_setVoice_other]

theorem mix_foldl_renderVoice {l : List VoiceId} (hl : l.Nodup) (m : State × Mix) :
    (l.foldl State.renderVoice m).2 = l.foldl m.1.mixIn m.2 := by
  induction l generalizing m with
  | nil => rfl
  | cons v l ih =>
    obtain ⟨hv, hl⟩ := List.nodup_cons.mp hl
    rw [List.foldl_cons, List.foldl_cons, ih hl, renderVoice_eq]
    refine List.foldl_ext _ _ _ fun x u hu => mixIn_setVoice_other ?_ _ _ x
    rintro rfl
    exact hv hu

/-- The two channels are summed apart, each over the audible voices. -/
theorem foldl_mixIn_eq (s : State) (l : List VoiceId) (x : Mix) :
    l.foldl s.mixIn x =
      { l := (l.filter s.audible).foldl (fun m v => f32add m (s.pannedLeft v)) x.l
        r := (l.filter s.audible).foldl (fun m v => f32add m (s.pannedRight v)) x.r } := by
  induction l generalizing x with
  | nil => rfl
  | cons v l ih =>
    rw [List.foldl_cons, ih]
    cases h : s.audible v <;> simp [h, State.mixIn]

theorem mem_voiceIds (v : VoiceId) : v ∈ voiceIds := List.mem_finRange v

theorem nodup_voiceIds : voiceIds.Nodup := List.nodup_finRange numVoices

/-- One channel of a sample request (43_voice.md R157). -/
def State.channel (s : State) (panned : VoiceId → F32) : F32 :=
  (voiceIds.filter s.audible).foldl (fun m v => f32add m (panned v)) f32zero

@[simp] theorem voice_render (s : State) (v : VoiceId) : s.render.voice v = (s.sampled v).1 := by
  rw [State.render, State.voice_emit, voice_foldl_renderVoice nodup_voiceIds, if_pos (mem_voiceIds v)]

theorem render_out (s : State) :
    s.render.out = s.out ++ [.out (s.channel s.pannedLeft) (s.channel s.pannedRight)] := by
  obtain ⟨-, hout⟩ := foldl_renderVoice_only voiceIds (s, { l := f32zero, r := f32zero })
  rw [State.render, State.emit_out_out, hout, mix_foldl_renderVoice nodup_voiceIds, foldl_mixIn_eq]
  rfl

/-- Settles O50. -/
theorem sampleRequestMixesAudibleVoices : Obligations.SampleRequestMixesAudibleVoices := by
  intro s y audible
  obtain ⟨⟨hparams, htracks, hmem, hepoch, htp, htb, hinputs, hread⟩, -⟩ := render_only s
  have hout := render_out s
  rw [State.channel, State.channel, voiceIds_eq] at hout
  exact ⟨s.render, rfl, voice_render s, fun t => by rw [State.track, htracks]; rfl, htp, htb,
    State.byteAt_congr hmem hepoch, ⟨hparams, hepoch, hinputs, hread⟩, hout⟩

/-- Settles O51: no voice is audible, so both sums are empty, and an idle voice's turn is its tail's. -/
theorem tailOutlivingItsNoteIsSilent : Obligations.TailOutlivingItsNoteIsSilent := by
  intro s hidle
  have hsilent (panned : VoiceId → F32) : s.channel panned = f32zero := by
    have hnone : voiceIds.filter s.audible = [] := List.filter_eq_nil_iff.mpr fun v _ => by
      simp [State.audible, State.sampled, voiceSample_audible, hidle v]
    rw [State.channel, hnone, List.foldl_nil]
  refine ⟨s.render, rfl, by rw [render_out, hsilent, hsilent]; rfl, fun v hon hactive => ?_⟩
  rw [voice_render, State.sampled, voiceSample_of_idle _ hon (hidle v)]
  simp only [decayedVoice, tailRuns, hactive, Bool.true_and]
  exact ⟨trivial, rfl⟩

end Sys2Proof.Machine
end

section
/-! PROOFS. The levels of the voice engine (43_voice.md R159). A tail below 101 decays below 100, a sample adds at
most 1, and gain and pan make nothing larger; so a voice gives less than 101, and eight voices less than 808. The
bounds are kept a little below the round numbers, so that they and the sums of up to eight of them are exact in
binary32. -/

namespace Sys2Proof.Machine

/-! ## One voice -/

/-- 100 - 2^-7, a bound on a tail that has decayed. -/
def decayedBound : Nat := 0x42C7FC00

/-- 101 - 2^-7, a bound on what a voice gives. -/
def valueBound : Nat := 0x42C9FC00

theorem isFinite_of_mag_lt_tailBound {d : F32} (h : f32mag d < tailBound) : f32isFinite d = true :=
  (f32isFinite_iff d).mpr (h.trans (by decide))

theorem f32mag_mul_decayFactor_le {d : F32} (h : f32mag d < tailBound) :
    f32mag (f32mul d decayFactor) ≤ decayedBound := by
  refine f32mag_f32mul_le (isFinite_of_mag_lt_tailBound h) (by decide) ?_
  calc f32units d * f32units decayFactor
      ≤ magUnits (tailBound - 1) * f32units decayFactor :=
        Nat.mul_le_mul_right _ (f32units_le_magUnits (Nat.le_sub_one_of_lt h))
    _ ≤ magUnits decayedBound * 2 ^ 149 := by decide

theorem f32mag_tailValue_le {vc : Voice} (h : f32mag vc.decayAmplitude < tailBound) (floor : F32) :
    f32mag (tailValue floor vc) ≤ decayedBound := by
  unfold tailValue
  split
  · have hdecayed := f32mag_mul_decayFactor_le h
    refine f32mag_f32add_le (by decide) (f32isFinite_of_mag_le hdecayed (by decide)) ?_
    rw [show f32units f32zero = 0 by decide, Nat.zero_add]
    exact f32units_le_magUnits hdecayed
  · decide

theorem f32mag_noteValue_le {vc : Voice} (h : f32mag vc.decayAmplitude < tailBound)
    (hgain : vc.gain.toNat ≤ 0x3F800000) (floor : F32) (x : Sample) :
    f32mag (noteValue floor vc x) ≤ valueBound := by
  have htail := f32mag_tailValue_le h floor
  obtain ⟨hsample, -, -⟩ := normalize_exact x
  have hsum : f32mag (f32add (tailValue floor vc) (normalize x)) ≤ valueBound := by
    refine f32mag_f32add_le (f32isFinite_of_mag_le htail (by decide)) (f32isFinite_of_mag_le hsample (by decide)) ?_
    calc f32units (tailValue floor vc) + f32units (normalize x)
        ≤ magUnits decayedBound + magUnits 0x3F800000 :=
          Nat.add_le_add (f32units_le_magUnits htail) (f32units_le_magUnits hsample)
      _ ≤ magUnits valueBound := by decide
  exact (f32mag_f32mul_le_left (f32isFinite_of_mag_le hsum (by decide))
    ((f32mag_le_toNat _).trans hgain)).trans hsum

theorem f32mag_decayedVoice_lt {vc : Voice} (h : f32mag vc.decayAmplitude < tailBound) (floor : F32) :
    f32mag (decayedVoice floor vc).decayAmplitude < tailBound := by
  unfold decayedVoice
  dsimp only
  split
  · exact Nat.lt_of_le_of_lt (f32mag_mul_decayFactor_le h) (by decide)
  · exact h

/-- A sample request keeps a tail below 101, and what the voice gives is below 101 too. -/
theorem voiceSample_bounded {vc : Voice} (h : f32mag vc.decayAmplitude < tailBound)
    (hgain : vc.gain.toNat ≤ 0x3F800000) (floor : F32) (x : Sample) :
    f32mag (voiceSample floor vc x).1.decayAmplitude < tailBound ∧
      f32mag (voiceSample floor vc x).2.2 ≤ valueBound := by
  have hnote := f32mag_noteValue_le h hgain floor x
  cases hon : vc.enabled
  · rw [voiceSample_of_disabled floor hon]
    exact ⟨h, show f32mag f32zero ≤ valueBound by decide⟩
  cases hplay : vc.isPlaying
  · rw [voiceSample_of_idle floor hon hplay]
    exact ⟨f32mag_decayedVoice_lt h floor, (f32mag_tailValue_le h floor).trans (by decide)⟩
  by_cases hlast : vc.playbackPosition.toNat + 1 = vc.length.toNat
  · rw [voiceSample_of_last floor hon hplay hlast]
    exact ⟨Nat.lt_of_le_of_lt hnote (by decide), hnote⟩
  · rw [voiceSample_of_playing floor hon hplay hlast]
    exact ⟨f32mag_decayedVoice_lt h floor, hnote⟩

/-- A retrigger's tail is at most 1.0. -/
theorem f32mag_triggerVoice_lt {vc : Voice} (h : f32mag vc.decayAmplitude < tailBound)
    (hgain : vc.gain.toNat ≤ 0x3F800000) (x : Sample) :
    f32mag (triggerVoice vc x).1.decayAmplitude < tailBound := by
  cases hon : vc.enabled
  · rwa [triggerVoice_of_disabled hon]
  cases hplay : vc.isPlaying
  · rwa [triggerVoice_of_idle hon hplay]
  rw [triggerVoice_of_playing hon hplay]
  obtain ⟨hsample, -, -⟩ := normalize_exact x
  have hle := f32mag_f32mul_le_left (f32isFinite_of_mag_le hsample (by decide)) ((f32mag_le_toNat _).trans hgain)
  exact Nat.lt_of_le_of_lt (hle.trans hsample) (by decide)

/-! ## The sums -/

/-- A coefficient of a pan table, at an index that the table has. -/
theorem panCoefficient_le {coefficients : Vector F32 panPositions}
    (h : ∀ i (hi : i < panPositions), coefficients[i].toNat ≤ 0x3F800000) {i : BitVec 5}
    (hi : i.toNat ≤ panMax) (outside : F32) : ((coefficients[i.toNat]?).getD outside).toNat ≤ 0x3F800000 := by
  have hlt : i.toNat < panPositions := Nat.lt_succ_of_le hi
  rw [Vector.getElem?_eq_getElem hlt, Option.getD_some]
  exact h _ hlt

/-- `k` times `valueBound`, exact in binary32 up to eight voices. -/
def sumBound (k : Nat) : Nat := roundMag (k * magUnits valueBound) 0

theorem sumBound_succ :
    ∀ k < numVoices, magUnits (sumBound k) + magUnits valueBound ≤ magUnits (sumBound (k + 1)) := by
  decide

theorem sumBound_lt : ∀ k ≤ numVoices, sumBound k < channelBound := by decide

theorem f32mag_foldl_f32add_le (l : List F32) (hl : l.length ≤ numVoices)
    (h : ∀ x ∈ l, f32mag x ≤ valueBound) : f32mag (l.foldl f32add f32zero) ≤ sumBound l.length := by
  induction l using List.reverseRecOn with
  | nil => decide
  | append_singleton l x ih =>
    rw [List.length_append, List.length_singleton] at hl ⊢
    have hsum := ih (by omega) fun y hy => h y (List.mem_append_left _ hy)
    have hx := h x (List.mem_append_right _ (List.mem_singleton_self x))
    have hfin : sumBound l.length < 0x7F800000 := (sumBound_lt _ (by omega)).trans (by decide)
    rw [List.foldl_append, List.foldl_cons, List.foldl_nil]
    exact f32mag_f32add_le (f32isFinite_of_mag_le hsum hfin) (f32isFinite_of_mag_le hx (by decide))
      ((Nat.add_le_add (f32units_le_magUnits hsum) (f32units_le_magUnits hx)).trans
        (sumBound_succ _ (by omega)))

theorem f32mag_channel_lt {s : State} {panned : VoiceId → F32} (h : ∀ v, f32mag (panned v) ≤ valueBound) :
    f32mag (s.channel panned) < channelBound := by
  have hlen : ((voiceIds.filter s.audible).map panned).length ≤ numVoices := by
    rw [List.length_map]
    exact List.length_filter_le _ _
  have hall : ∀ x ∈ (voiceIds.filter s.audible).map panned, f32mag x ≤ valueBound := by
    intro x hx
    obtain ⟨v, -, rfl⟩ := List.mem_map.mp hx
    exact h v
  have hsum := f32mag_foldl_f32add_le _ hlen hall
  rw [List.foldl_map] at hsum
  exact Nat.lt_of_le_of_lt hsum (sumBound_lt _ hlen)

/-! ## States -/

/-- Every tail below 101, every output record below 808. -/
structure LevelsBounded (s : State) : Prop where
  tails : TailsBounded s
  records : ∀ r ∈ s.out, RecordBounded r

/-- The levels are the tails and the records, and nothing else. -/
theorem LevelsBounded.congr {s t : State} (h : LevelsBounded s) (hv : t.voices = s.voices) (ho : t.out = s.out) :
    LevelsBounded t where
  tails := fun v => by simp only [State.voice, hv]; exact h.tails v
  records := ho ▸ h.records

theorem LevelsBounded.setVoice {s : State} (h : LevelsBounded s) {vc : Voice}
    (hvc : f32mag vc.decayAmplitude < tailBound) (v : VoiceId) : LevelsBounded (s.setVoice v vc) where
  tails := fun u => by
    rw [State.voice_setVoice]
    split
    · exact hvc
    · exact h.tails u
  records := h.records

theorem LevelsBounded.append {s t : State} (h : LevelsBounded s) {r : OutRecord} (htails : TailsBounded t)
    (ho : t.out = s.out ++ [r]) (hr : RecordBounded r) : LevelsBounded t where
  tails := htails
  records := fun q hq => by
    rw [ho] at hq
    rcases List.mem_append.mp hq with hq | hq
    · exact h.records q hq
    · rwa [List.mem_singleton.mp hq]

theorem LevelsBounded.trigger {s : State} (h : LevelsBounded s) (hlegal : Legal s) (v : VoiceId) :
    LevelsBounded (s.trigger v) :=
  h.append (h.setVoice (f32mag_triggerVoice_lt (h.tails v) (hlegal.voices v).gain_range _) v).tails rfl trivial

theorem LevelsBounded.tick {s : State} (h : LevelsBounded s) (hlegal : Legal s) : LevelsBounded s.tick := by
  have hemit : LevelsBounded (s.emit (.tick s.tp.stepCounter)) := h.append h.tails rfl trivial
  obtain ⟨-, hturns⟩ := foldl_tickTrack_induction (P := fun t => Legal t ∧ LevelsBounded t)
    (fun _ t ⟨hl, hb⟩ => ⟨hl.advance t, hb.congr rfl rfl⟩)
    (fun _ v ⟨hl, hb⟩ => ⟨hl.trigger v, hb.trigger hl v⟩)
    s.tp.stepCounter trackIds ⟨hlegal.emit _, hemit⟩
  exact hturns.congr rfl rfl

theorem LevelsBounded.start {s : State} (h : LevelsBounded s) (hlegal : Legal s) :
    LevelsBounded (State.startSequence { s with tp := { s.tp with mode := .external, running := true } }) := by
  obtain ⟨hl, hb⟩ := List.foldlRecOn trackIds State.rewind (motive := fun t => Legal t ∧ LevelsBounded t)
    ⟨hlegal.setTransport hlegal.transport.start, h.congr rfl rfl⟩
    fun _ ⟨hl, hb⟩ t _ => ⟨hl.rewind t, hb.congr rfl rfl⟩
  exact hb.tick hl

theorem LevelsBounded.render {s : State} (h : LevelsBounded s) (hlegal : Legal s) : LevelsBounded s.render := by
  have hsampled (v : VoiceId) := voiceSample_bounded (h.tails v) (hlegal.voices v).gain_range s.params.decayFloor
    (s.currentSample v)
  have hpanned (v : VoiceId) {pan : F32} (hpan : pan.toNat ≤ 0x3F800000) :
      f32mag (f32mul (s.sampled v).2.2 pan) ≤ valueBound := by
    obtain ⟨-, hvalue⟩ := hsampled v
    exact (f32mag_f32mul_le_left (f32isFinite_of_mag_le hvalue (by decide))
      ((f32mag_le_toNat _).trans hpan)).trans hvalue
  have hrecord : RecordBounded (.out (s.channel s.pannedLeft) (s.channel s.pannedRight)) :=
    ⟨f32mag_channel_lt fun v => hpanned v (panCoefficient_le hlegal.params.panL_le (hlegal.voices v).pan_le _),
      f32mag_channel_lt fun v => hpanned v (panCoefficient_le hlegal.params.panR_le (hlegal.voices v).pan_le _)⟩
  refine h.append (fun v => ?_) (render_out s) hrecord
  obtain ⟨htail, -⟩ := hsampled v
  rwa [voice_render]

/-! ## Every event -/

theorem Effect.levelsBounded {x : Input} {s t : State} (he : Effect x s t) (hlegal : Legal s)
    (h : LevelsBounded s) : LevelsBounded t := by
  cases he
  case trigger v => exact h.trigger hlegal v
  case pulseTick => exact LevelsBounded.tick (h.congr rfl rfl) (hlegal.setTransport hlegal.transport.nextPulse)
  case start => exact h.start hlegal
  case strobeTick => exact LevelsBounded.tick (h.congr rfl rfl) (hlegal.congr rfl rfl rfl rfl rfl)
  case enable v d _ _ _ _ => exact h.setVoice (by exact h.tails v) v
  case setLength v d _ => exact h.setVoice (by exact h.tails v) v
  case setGain v d => exact h.setVoice (by exact h.tails v) v
  case setPan v d => exact h.setVoice (by exact h.tails v) v
  case render => exact h.render hlegal
  case reset =>
    refine ⟨fun v => ?_, fun r hr => absurd hr List.not_mem_nil⟩
    rw [State.applyReset, resetState_voice]
    decide
  all_goals exact h.congr rfl rfl

theorem levelsBounded_of_out_nil {s t : State} (h : TailsBounded s) (hv : t.voices = s.voices) (ho : t.out = []) :
    LevelsBounded t where
  tails := fun v => by simp only [State.voice, hv]; exact h v
  records := fun r hr => absurd (ho ▸ hr) List.not_mem_nil

/-- Settles O60: the idle step drives nothing, and every effect keeps the levels bounded. -/
theorem stepKeepsTailsBounded : Obligations.StepKeepsTailsBounded := by
  intro s t hlegal h hstep
  have hbounded : LevelsBounded t := by
    rcases effect_of_step hstep with ⟨-, rfl⟩ | ⟨x, rest, -, heffect⟩
    · exact levelsBounded_of_out_nil h rfl rfl
    · exact heffect.levelsBounded (hlegal.congr rfl rfl rfl rfl rfl) (levelsBounded_of_out_nil h rfl rfl)
  exact ⟨hbounded.tails, hbounded.records⟩

end Sys2Proof.Machine
end

section
/-! PROOFS. Every tail ends (43_voice.md R153, R156). `requestsLeft` counts the sample requests a voice can still
sound through: the samples of its note and then one for each magnitude down to its tail's. A request makes it
smaller, because above the floor every magnitude is normal and so shrinks. -/

namespace Sys2Proof.Machine

/-! ## The floor -/

/-- For a finite tail and an allowed floor `f32gt` compares the bit patterns. -/
theorem f32gt_abs_floor_iff {d floor : F32} (hd : f32isFinite d = true) (hlt : floor.toNat < 0x3F800000) :
    f32gt (f32abs d) floor = true ↔ floor.toNat < f32mag d := by
  have hmag : f32mag d < 0x7F800000 := (f32isFinite_iff d).mp hd
  have habs : f32mag (f32abs d) = f32mag d := f32mag_f32make false (by omega)
  have hplus : f32sign (f32abs d) = false := f32sign_f32make false (by omega)
  have hfloor : f32mag floor = floor.toNat := Nat.mod_eq_of_lt (by omega)
  have hfloorPlus : f32sign floor = false := Nat.testBit_lt_two_pow (show floor.toNat < 2 ^ 31 by omega)
  have hnumbers : f32isNaN (f32abs d) = false ∧ f32isNaN floor = false := by
    simp only [f32isNaN, habs, hfloor, decide_eq_false_iff_not]
    omega
  simp [f32gt, hnumbers, f32key, habs, hplus, hfloor, hfloorPlus]

/-- A finite tail that runs on loses magnitude, because the floor is normal. -/
theorem f32mag_decay_lt {p : Params} (hp : LegalParams p) {vc : Voice}
    (hfin : f32isFinite vc.decayAmplitude = true) (hruns : tailRuns p.decayFloor vc = true) :
    f32mag (f32mul vc.decayAmplitude decayFactor) < f32mag vc.decayAmplitude := by
  obtain ⟨-, hgt⟩ := Bool.and_eq_true_iff.mp hruns
  have habove := (f32gt_abs_floor_iff hfin hp.floor_below_one).mp hgt
  have hnormal := hp.floor_normal
  exact (decayFactorShrinksNormalTail _ hfin (by omega)).1

/-! ## Requests left -/

/-- A bound on the sample requests that a voice sounds through, note and tail. -/
def requestsLeft (vc : Voice) : Nat :=
  if vc.isPlaying then vc.length.toNat - vc.playbackPosition.toNat + tailBound
  else if vc.decayActive then f32mag vc.decayAmplitude + 1
  else 0

theorem requestsLeft_of_playing {vc : Voice} (h : vc.isPlaying = true) :
    requestsLeft vc = vc.length.toNat - vc.playbackPosition.toNat + tailBound := if_pos h

theorem requestsLeft_of_tail {vc : Voice} (hidle : vc.isPlaying = false) (hactive : vc.decayActive = true) :
    requestsLeft vc = f32mag vc.decayAmplitude + 1 := by
  simp [requestsLeft, hidle, hactive]

theorem requestsLeft_of_ended {vc : Voice} (hidle : vc.isPlaying = false) (hended : vc.decayActive = false) :
    requestsLeft vc = 0 := by
  simp [requestsLeft, hidle, hended]

theorem ended_of_requestsLeft_eq_zero {vc : Voice} (h : requestsLeft vc = 0) :
    vc.isPlaying = false ∧ vc.decayActive = false := by
  have hpos : 0 < tailBound := by decide
  cases hplay : vc.isPlaying
  · cases hactive : vc.decayActive
    · exact ⟨rfl, rfl⟩
    · rw [requestsLeft_of_tail hplay hactive] at h
      omega
  · rw [requestsLeft_of_playing hplay] at h
    omega

/-- A request of an idle voice, whatever its tail. -/
theorem requestsLeft_idle {p : Params} (hp : LegalParams p) {vc : Voice} (hidle : vc.isPlaying = false)
    (hfin : f32isFinite vc.decayAmplitude = true) :
    requestsLeft (decayedVoice p.decayFloor vc) ≤ requestsLeft vc - 1 := by
  cases hruns : tailRuns p.decayFloor vc
  · rw [requestsLeft_of_ended (vc := decayedVoice p.decayFloor vc) hidle hruns]
    exact Nat.zero_le _
  · have hless := f32mag_decay_lt hp hfin hruns
    obtain ⟨hactive, -⟩ := Bool.and_eq_true_iff.mp hruns
    have hdecayed : (decayedVoice p.decayFloor vc).decayAmplitude = f32mul vc.decayAmplitude decayFactor :=
      if_pos hruns
    rw [requestsLeft_of_tail hidle hactive, requestsLeft_of_tail (vc := decayedVoice p.decayFloor vc) hidle hruns,
      hdecayed]
    omega

/-- A request of a legal voice. -/
theorem requestsLeft_voiceSample {p : Params} (hp : LegalParams p) {vc : Voice} (h : LegalVoice p vc)
    (htail : f32mag vc.decayAmplitude < tailBound) (x : Sample) :
    requestsLeft (voiceSample p.decayFloor vc x).1 ≤ requestsLeft vc - 1 := by
  cases hon : vc.enabled
  · obtain ⟨hidle, hended, -⟩ := h.disabled_silent hon
    rw [voiceSample_of_disabled _ hon, requestsLeft_of_ended hidle hended]
  cases hplay : vc.isPlaying
  · rw [voiceSample_of_idle _ hon hplay]
    exact requestsLeft_idle hp hplay (isFinite_of_mag_lt_tailBound htail)
  obtain ⟨-, hpos⟩ := h.enabled_loaded hon
  rw [requestsLeft_of_playing hplay]
  by_cases hlast : vc.playbackPosition.toNat + 1 = vc.length.toNat
  · have hnote := f32mag_noteValue_le htail h.gain_range p.decayFloor x
    have hvalue : valueBound < tailBound := by decide
    rw [voiceSample_of_last _ hon hplay hlast, requestsLeft_of_tail rfl rfl]
    dsimp only
    omega
  · have hfits : (BitVec.ofNat 20 (vc.playbackPosition.toNat + 1)).toNat = vc.playbackPosition.toNat + 1 := by
      have hlen := h.length_le
      have hmax := hp.samples_le
      exact Nat.mod_eq_of_lt (by omega)
    rw [voiceSample_of_playing _ hon hplay hlast, requestsLeft_of_playing (by exact hplay)]
    dsimp only [decayedVoice]
    omega

/-! ## Runs of sample requests -/

/-- What every sample request brings one closer, as many requests bring about. -/
theorem runs_sampleReqs {P : Nat → State → Prop}
    (hstep : ∀ n s xs, P (n + 1) s → P n (s.takeInput xs).render) (hend : ∀ s, P 0 s → P 0 (s.present []))
    (n : Nat) {s : State} (h : P n s) :
    ∃ t rs, runEvents (List.replicate n .sampleReq) s = some (t, rs) ∧ P 0 t := by
  induction n generalizing s with
  | zero => exact ⟨s.present [], [], rfl, hend s h⟩
  | succ n ih =>
    obtain ⟨t, rs, hrun, ht⟩ := ih (hstep n s (List.replicate n .sampleReq) h)
    have hfirst : perform .sampleReq (s.takeInput (List.replicate n .sampleReq))
        = .next (s.takeInput (List.replicate n .sampleReq)).render := rfl
    refine ⟨t, (s.takeInput (List.replicate n .sampleReq)).render.out ++ rs, ?_, ht⟩
    rw [List.replicate_succ, runEvents_cons hfirst, hrun]
    rfl

/-- An idle voice with a finite tail and at most `n` requests left. -/
structure IdleFor (v : VoiceId) (n : Nat) (s : State) : Prop where
  params : LegalParams s.params
  enabled : (s.voice v).enabled = true
  idle : (s.voice v).isPlaying = false
  finite : f32isFinite (s.voice v).decayAmplitude = true
  left : requestsLeft (s.voice v) ≤ n

theorem isFinite_decayedVoice {p : Params} (hp : LegalParams p) {vc : Voice}
    (hfin : f32isFinite vc.decayAmplitude = true) :
    f32isFinite (decayedVoice p.decayFloor vc).decayAmplitude = true := by
  unfold decayedVoice
  dsimp only
  split
  · next hruns =>
    exact f32isFinite_of_mag_le (f32mag_decay_lt hp hfin hruns).le ((f32isFinite_iff _).mp hfin)
  · exact hfin

theorem IdleFor.render {v : VoiceId} {n : Nat} {s : State} (h : IdleFor v (n + 1) s) : IdleFor v n s.render := by
  have hvoice : s.render.voice v = decayedVoice s.params.decayFloor (s.voice v) := by
    rw [voice_render, State.sampled, voiceSample_of_idle _ h.enabled h.idle]
  obtain ⟨⟨hparams, -⟩, -⟩ := render_only s
  have hless := requestsLeft_idle h.params h.idle h.finite
  have hleft := h.left
  exact
    { params := by rw [hparams]; exact h.params
      enabled := by rw [hvoice]; exact h.enabled
      idle := by rw [hvoice]; exact h.idle
      finite := by rw [hvoice]; exact isFinite_decayedVoice h.params h.finite
      left := by rw [hvoice]; omega }

/-- A legal state with bounded tails, and at most `n` requests left for voice `v`. -/
structure SoundingFor (v : VoiceId) (n : Nat) (s : State) : Prop where
  legal : Legal s
  tails : TailsBounded s
  left : requestsLeft (s.voice v) ≤ n

theorem SoundingFor.render {v : VoiceId} {n : Nat} {s : State} (h : SoundingFor v (n + 1) s) (hout : s.out = []) :
    SoundingFor v n s.render where
  legal := h.legal.render
  tails := ((levelsBounded_of_out_nil h.tails rfl hout).render h.legal).tails
  left := by
    have hless := requestsLeft_voiceSample h.legal.params (h.legal.voices v) (h.tails v) (s.currentSample v)
    have hleft := h.left
    rw [voice_render]
    exact hless.trans (by omega)

/-- Settles O53: as many requests as the voice has left. -/
theorem everyTailEnds : Obligations.EveryTailEnds := by
  refine ⟨fun s v hp hon hidle hfin => ?_, fun s v hlegal htails => ?_⟩
  · obtain ⟨t, rs, hrun, hend⟩ := runs_sampleReqs (P := IdleFor v)
      (fun _ _ _ h => IdleFor.render ⟨h.params, h.enabled, h.idle, h.finite, h.left⟩)
      (fun _ h => ⟨h.params, h.enabled, h.idle, h.finite, h.left⟩) _ ⟨hp, hon, hidle, hfin, le_refl _⟩
    exact ⟨_, t, rs, hrun, (ended_of_requestsLeft_eq_zero (Nat.le_zero.mp hend.left)).2⟩
  · obtain ⟨t, rs, hrun, hend⟩ := runs_sampleReqs (P := SoundingFor v)
      (fun _ _ _ h => SoundingFor.render ⟨h.legal.congr rfl rfl rfl rfl rfl, h.tails, h.left⟩ rfl)
      (fun _ h => ⟨h.legal.congr rfl rfl rfl rfl rfl, h.tails, h.left⟩) _ ⟨hlegal, htails, le_refl _⟩
    exact ⟨_, t, rs, hrun, ended_of_requestsLeft_eq_zero (Nat.le_zero.mp hend.left)⟩

end Sys2Proof.Machine
end

section
/-! PROOFS. The words of the bus map (20_memory.md R59, R60, R64, R65, 44_host_bus.md R170, R171). Every address
that the decoder gives a row lies in the part of the map that `Writable` or `Readable` writes out; every other one
it rejects by name. -/

namespace Sys2Proof.Machine

/-! ## Addresses as numbers -/

theorem voiceRegAddr_toNat (v : VoiceId) (k : BitVec 3) :
    (voiceRegAddr v k).toNat = 0x100 + 8 * v.val + k.toNat := by
  revert v k; decide

theorem trackRegAddr_toNat (t : TrackId) (mask : Bool) :
    (trackRegAddr t mask).toNat = 0x10 + 2 * t.val + mask.toNat := by
  revert t mask; decide

theorem toNat_of_voiceRegIndex_eq {wa : WordAddr} {k : BitVec 3} (hvoice : isVoiceReg wa = true)
    (hk : voiceRegIndex wa = k) : wa.toNat = 0x100 + 8 * (voiceRegVoice wa).val + k.toNat := by
  rw [← voiceRegAddr_toNat, voiceRegAddr_of_voiceRegIndex_eq hvoice hk]

/-- Regions 1 to 8 are the sample windows (20_memory.md R64). -/
theorem sampleWindow_of_regionOf_eq {wa : WordAddr} {r : BitVec 4} (hr : regionOf wa = r)
    (hwindow : 1 ≤ r.toNat ∧ r.toNat ≤ 8) : 0x100000 ≤ wa.toNat ∧ wa.toNat < 0x900000 := by
  have hoffset := (offsetOf wa).isLt
  rw [← sampleAddr_of_regionOf_eq hr, sampleAddr, toNat_append_eq_add]
  omega

/-! ## Writes -/

theorem writable_of_voiceRegIndex_eq {wa : WordAddr} {k : BitVec 3} (hvoice : isVoiceReg wa = true)
    (hk : voiceRegIndex wa = k) (hlt : k.toNat < 4) : Writable wa :=
  .inr (.inl ⟨_, _, (voiceRegVoice wa).isLt, hlt, toNat_of_voiceRegIndex_eq hvoice hk⟩)

theorem decodeRegisterWrite_of_not_writable {wa : WordAddr} (h : ¬ Writable wa) (d : Word) :
    decodeRegisterWrite wa d = .error (.ignoredWrite wa) := by
  have hlow : ∀ a : WordAddr, a.toNat ≤ 2 → wa ≠ a := fun a ha hwa => h (.inl (hwa ▸ ha))
  rw [decodeRegisterWrite, if_neg (hlow _ (by decide)), if_neg (hlow _ (by decide)),
    if_neg (hlow _ (by decide))]
  split
  · next hvoice =>
    split
    case h_5 => rfl
    all_goals next hk => exact absurd (writable_of_voiceRegIndex_eq hvoice hk (by decide)) h
  · rfl

theorem decodeBusW_of_not_writable {wa : WordAddr} (h : ¬ Writable wa) (d : Word) :
    decodeBusW wa d = .error (.ignoredWrite wa) := by
  unfold decodeBusW
  split
  case h_1 => exact decodeRegisterWrite_of_not_writable h d
  case h_10 => rfl
  all_goals
    next hr => exact absurd (.inr (.inr (sampleWindow_of_regionOf_eq hr (by decide)))) h

/-! ## Reads -/

theorem readable_of_isTrackReg {wa : WordAddr} (htrack : isTrackReg wa = true) : Readable wa := by
  refine .inr (.inl ?_)
  have ht : (trackRegTrack wa).val < 4 := (trackRegTrack wa).isLt
  have hmask := (trackRegMask wa).toNat_lt
  rw [← trackRegAddr_of_isTrackReg htrack, trackRegAddr_toNat]
  omega

theorem readable_of_voiceRegIndex_eq {wa : WordAddr} {k : BitVec 3} (hvoice : isVoiceReg wa = true)
    (hk : voiceRegIndex wa = k) (hlt : k.toNat < 6) : Readable wa :=
  .inr (.inr (.inl ⟨_, _, (voiceRegVoice wa).isLt, hlt, toNat_of_voiceRegIndex_eq hvoice hk⟩))

/-- CMD and XPORT answer 0 as the unmapped words do. -/
theorem decodeRegisterRead_of_not_readable {wa : WordAddr} (h : ¬ Readable wa) (s : State) :
    performDecoded (decodeRegisterRead wa) s = .next (s.answer 0) := by
  have hlow : ∀ a : WordAddr, 2 ≤ a.toNat ∧ a.toNat ≤ 7 → wa ≠ a := fun a ha hwa => h (.inl (hwa ▸ ha))
  unfold decodeRegisterRead
  split
  · rfl
  iterate 6 rw [if_neg (hlow _ (by decide))]
  rw [if_neg fun htrack => h (readable_of_isTrackReg htrack)]
  split
  · next hvoice =>
    split
    case h_7 => rfl
    all_goals next hk => exact absurd (readable_of_voiceRegIndex_eq hvoice hk (by decide)) h
  · rfl

theorem decodeBusR_of_not_readable {wa : WordAddr} (h : ¬ Readable wa) (s : State) :
    performDecoded (decodeBusR wa) s = .next (s.answer 0) := by
  unfold decodeBusR
  split
  case h_1 => exact decodeRegisterRead_of_not_readable h s
  case h_10 => rfl
  all_goals
    next hr => exact absurd (.inr (.inr (.inr (sampleWindow_of_regionOf_eq hr (by decide))))) h

/-- Settles O9: the decoder rejects such a write, and answers such a read 0. -/
theorem unnamedWordsReadZeroAndIgnoreWrites : Obligations.UnnamedWordsReadZeroAndIgnoreWrites := by
  refine ⟨fun wa d s h => ?_, fun wa s h => ⟨s.answer 0, decodeBusR_of_not_readable h s, answer_eq s 0⟩⟩
  rw [perform_eq_performDecoded, decode, decodeBusW_of_not_writable h d]
  rfl

end Sys2Proof.Machine
end

section
/-! PROOFS. The bus writes (44_host_bus.md R170 to R177). A write to CMD or XPORT is the event its word names; a
voice's register takes the written word clamped, some only while the voice is disabled. -/

namespace Sys2Proof.Machine

/-! ## CMD and XPORT -/

theorem toNat_field (d : Word) (start len : Nat) :
    (d.extractLsb' start len).toNat = d.toNat / 2 ^ start % 2 ^ len := by
  rw [BitVec.extractLsb'_toNat, Nat.shiftRight_eq_div_pow]

theorem cmdOp_toNat (d : Word) : (cmdOp d).toNat = d.toNat / 2 ^ 28 := by
  have hd := d.isLt
  rw [cmdOp, toNat_field, Nat.mod_eq_of_lt (by omega)]

theorem cmdOp_of_div_eq {d : Word} {n : Nat} (h : d.toNat / 2 ^ 28 = n) : cmdOp d = BitVec.ofNat 4 n :=
  eq_ofNat_of_toNat_eq ((cmdOp_toNat d).trans h)

theorem eq_cmdTrack {d : Word} {t : TrackId} (h : t.val = d.toNat / 2 ^ 24 % 4) : t = cmdTrack d :=
  Fin.ext (h.trans (toNat_field d 24 2).symm)

theorem eq_cmdVoice {d : Word} {v : VoiceId} (h : v.val = d.toNat / 2 ^ 24 % 8) : v = cmdVoice d :=
  Fin.ext (h.trans (toNat_field d 24 3).symm)

theorem lowByte_of_mod_eq {d : Word} {n : Nat} (h : d.toNat % 256 = n) :
    d.extractLsb' 0 8 = BitVec.ofNat 8 n :=
  eq_ofNat_of_toNat_eq h

theorem exec_wrCmd_of_op {d : Word} {n : Nat} {i : Instr} {s : State} (hop : d.toNat / 2 ^ 28 = n)
    (hi : cmdOp d = BitVec.ofNat 4 n → decodeCmd32 d = i) : exec (.wrCmd d) s = exec i s :=
  (execWrCmd_eq d s).trans (congrArg (exec · s) (hi (cmdOp_of_div_eq hop)))

theorem exec_wrXport_of_code {d : Word} {n : Nat} {i : Instr} {s : State} (hcode : d.toNat % 256 = n)
    (hi : decodeXport8 (BitVec.ofNat 8 n) = i) : exec (.wrXport d) s = exec i s := by
  calc exec (.wrXport d) s = exec (decodeXport8 (d.extractLsb' 0 8)) s := execWrXport_eq d s
    _ = exec i s := by rw [lowByte_of_mod_eq hcode, hi]

/-- Settles O35: the word's numbers are the fields that the decoder splits on. -/
theorem writesToCmdAndXportRunTheirEvent : Obligations.WritesToCmdAndXportRunTheirEvent := by
  intro d t v s ht hv op imm code
  obtain rfl := eq_cmdTrack ht
  obtain rfl := eq_cmdVoice hv
  have hcmd : exec (.wrCmd d) s = exec (decodeCmd32 d) s := execWrCmd_eq d s
  have hxport : exec (.wrXport d) s = exec (decodeXport8 (d.extractLsb' 0 8)) s := execWrXport_eq d s
  refine ⟨?_, ?_, fun h => ?_, fun h => ?_, fun h => ?_, fun h => ?_, fun h => ?_, fun h => ?_, fun h => ?_,
    fun h => ?_, fun h => ?_, fun h => ?_, fun h => ?_, fun h => ?_, fun h => ?_, fun h => ?_, ?_⟩
  · obtain ⟨t, ht, -⟩ := perform_hasEffect (.cmd32 d) s
    exact ⟨t, hcmd.trans ht⟩
  · obtain ⟨t, ht, -⟩ := perform_hasEffect (.xport8 (d.extractLsb' 0 8)) s
    exact ⟨t, hxport.trans ht⟩
  · exact hcmd.trans (exec_decodeCmd32_of_noOperation (.inl (cmdOp_of_div_eq h)) s)
  iterate 8 exact exec_wrCmd_of_op h fun hop => by rw [decodeCmd32, hop]; rfl
  · exact hcmd.trans (exec_decodeCmd32_of_noOperation (.inr ((cmdOp_toNat d).symm ▸ h)) s)
  iterate 4 exact exec_wrXport_of_code h rfl
  · intro hclock hstart hcont hstop
    have hne : ∀ c : BitVec 8, code ≠ c.toNat → d.extractLsb' 0 8 ≠ c := fun c hc hd => hc (hd ▸ rfl)
    exact hxport.trans (exec_decodeXport8_of_noOperation (hne _ hclock) (hne _ hstart) (hne _ hstop) s)

/-! ## The voice registers -/

theorem execWrVctrl_of_loaded {v : VoiceId} {d : Word} {s : State} (hd : d.getLsbD 0 = true)
    (hoff : (s.voice v).enabled = false) (hlen : 1 ≤ (s.voice v).length.toNat) :
    execWrVctrl v d s = .next (s.setVoice v { s.voice v with enabled := true }) :=
  if_pos ⟨hd, hoff, hlen⟩

theorem execWrVctrl_of_ignored {v : VoiceId} {d : Word} {s : State}
    (h : d.getLsbD 0 = false ∨ (s.voice v).enabled = true ∨ (s.voice v).length = 0) :
    execWrVctrl v d s = .next s := by
  refine if_neg ?_
  rintro ⟨hd, hoff, hlen⟩
  rcases h with h | h | h
  · exact Bool.false_ne_true (h.symm.trans hd)
  · exact Bool.false_ne_true (hoff.symm.trans h)
  · rw [h] at hlen
    exact absurd hlen (by decide)

theorem execWrVlen_of_disabled {v : VoiceId} {s : State} (hoff : (s.voice v).enabled = false) (d : Word) :
    execWrVlen v d s = .next (s.setVoice v { s.voice v with length := clampVlen s.params.maxSamples d }) :=
  if_neg (ne_true_of_eq_false hoff)

theorem execWrVlen_of_enabled {v : VoiceId} {s : State} (hon : (s.voice v).enabled = true) (d : Word) :
    execWrVlen v d s = .next s :=
  if_pos hon

/-- A row that ends in a write of voice `v` changes that voice alone, to the value it writes. -/
theorem changesVoice_of_exec {v : VoiceId} {i : Instr} {s : State} {x y : Voice}
    (hexec : exec i s = .next (s.setVoice v x)) (hx : x = y) :
    ∃ s', exec i s = .next s' ∧ OnlyVoice v s s' ∧ s'.voice v = y :=
  ⟨s.setVoice v x, hexec, setVoice_onlyVoice s v x, (s.voice_setVoice_self v x).trans hx⟩

/-- Settles O37: the two cases of 44_host_bus.md R173. -/
theorem writeVctrlEnablesLoadedVoice : Obligations.WriteVctrlEnablesLoadedVoice := fun _ _ _ =>
  ⟨fun hd hoff hlen => changesVoice_of_exec (execWrVctrl_of_loaded hd hoff hlen) rfl,
    execWrVctrl_of_ignored⟩

/-- Settles O38: up to 2^20 the clamped length fits its field. -/
theorem writeVlenClampsWhileDisabled : Obligations.WriteVlenClampsWhileDisabled := by
  refine fun v d s hmax => ⟨fun hoff => ?_, fun hon => execWrVlen_of_enabled hon d⟩
  have hexec : exec (.wrVlen v d) s = _ := execWrVlen_of_disabled hoff d
  obtain ⟨s', hnext, honly, hvoice⟩ := changesVoice_of_exec hexec rfl
  refine ⟨s', hnext, honly, ?_, ?_⟩ <;> rw [hvoice]
  exact clampVlen_toNat _ d hmax

/-! ## The gain -/

theorem f32sign_eq (g : F32) : f32sign g = decide (2 ^ 31 ≤ g.toNat) :=
  (BitVec.msb_eq_getLsbD_last g).symm.trans (BitVec.msb_eq_decide g)

theorem f32key_f32zero : f32key f32zero = 0 := by decide

theorem clampGain_of_sign {g : F32} (h : 2 ^ 31 ≤ g.toNat) : clampGain g = f32zero := by
  have hkey : f32key g ≤ f32key f32zero := by
    rw [f32key_f32zero, f32key, f32sign_eq, decide_eq_true h, if_pos rfl]
    omega
  exact if_pos (.inr hkey)

/-- Without the sign bit the bit patterns are in the order of the values, the NaNs above plus infinity. -/
theorem clampGain_of_no_sign {g : F32} (h : g.toNat < 2 ^ 31) : clampGain g =
    if g.toNat < 0x3F800000 then g else if g.toNat ≤ 0x7F800000 then f32one else f32zero := by
  have hone : f32key f32one = 0x3F800000 := by decide
  have hmag : f32mag g = g.toNat := Nat.mod_eq_of_lt h
  have hkey : f32key g = g.toNat := by
    rw [f32key, f32sign_eq, decide_eq_false (Nat.not_le.mpr h), hmag]
    rfl
  have hnan : f32isNaN g = true ↔ 0x7F800000 < g.toNat := by rw [f32isNaN, hmag, decide_eq_true_eq]
  rw [clampGain, f32key_f32zero, hone, hkey]
  split
  · next hlow =>
    rcases hlow with hlow | hlow
    · rw [hnan] at hlow
      rw [if_neg (by omega), if_neg (by omega)]
    · obtain rfl : g = f32zero := BitVec.eq_of_toNat_eq (Nat.le_zero.mp (Int.ofNat_le.mp hlow))
      rfl
  · next hpos =>
    rw [not_or, hnan] at hpos
    split
    · rw [if_neg (by omega), if_pos (by omega)]
    · rw [if_pos (by omega)]

/-- The clamp of 44_host_bus.md R175 in terms of the word alone. -/
theorem clampGain_eq (g : F32) : clampGain g =
    if g.toNat < 0x3F800000 then g else if g.toNat ≤ 0x7F800000 then f32one else f32zero := by
  rcases Nat.lt_or_ge g.toNat (2 ^ 31) with h | h
  · exact clampGain_of_no_sign h
  · rw [clampGain_of_sign h, if_neg (by omega), if_neg (by omega)]

/-- Settles O39: `clampGain` in terms of the word, and the pan's clamp as it stands. -/
theorem writeVgainAndVpanClamp : Obligations.WriteVgainAndVpanClamp := fun v d s =>
  ⟨changesVoice_of_exec rfl (congrArg (fun g => { s.voice v with gain := g }) (clampGain_eq d)),
    changesVoice_of_exec rfl rfl⟩

/-! ## The sample windows -/

/-- A row that ends in `State.storeSample` writes the window. -/
theorem writesWindow_of_exec {v : VoiceId} {i : BitVec 20} {d : Word} {ins : Instr} {s : State}
    (hexec : exec ins s = .next (s.storeSample v i d)) : WritesWindow v i d ins s := by
  rcases storeSample_cases s v i d with ⟨hi, hoff, hstore⟩ | ⟨hnot, hhold⟩
  · rw [hstore] at hexec
    refine ⟨fun _ => ⟨_, hexec, s.sample_setSample_self v i _, setSample_onlyBytes s v i _⟩, fun h => ?_⟩
    rcases h with h | h
    · exact absurd hi (Nat.not_lt.mpr h)
    · exact absurd (hoff.symm.trans h) Bool.false_ne_true
  · exact ⟨fun h => absurd h hnot, fun _ => hexec.trans (congrArg _ hhold)⟩

/-- Settles O40: region `v + 1` is the window of voice `v` (20_memory.md R64). -/
theorem writeSampleStoresWhileDisabled : Obligations.WriteSampleStoresWhileDisabled := fun _ _ _ =>
  ⟨writesWindow_of_exec rfl, writesWindow_of_exec rfl, writesWindow_of_exec rfl, writesWindow_of_exec rfl,
    writesWindow_of_exec rfl, writesWindow_of_exec rfl, writesWindow_of_exec rfl, writesWindow_of_exec rfl⟩

end Sys2Proof.Machine
end

section
/-! PROOFS. The pseudo-instruction `load` (44_host_bus.md R178, 30_encoding.md R84). The run is followed write by
write with `HoldsSamples`: the samples stored so far, and the voice. -/

namespace Sys2Proof.Machine

/-! ## Bus writes as the rows they encode -/

theorem perform_encode {i : Instr} (hwf : i.wellFormed = true) (s : State) : perform (encode i) s = exec i s :=
  perform_of_decode_ok (decodeEncodeRoundTrip i hwf) s

/-- The row that writes voice `v`'s window (44_host_bus.md R176). -/
def wrSample (v : VoiceId) (i : BitVec 20) (d : Word) : Instr :=
  match v with
  | 0 => .wrSampleV0 i d
  | 1 => .wrSampleV1 i d
  | 2 => .wrSampleV2 i d
  | 3 => .wrSampleV3 i d
  | 4 => .wrSampleV4 i d
  | 5 => .wrSampleV5 i d
  | 6 => .wrSampleV6 i d
  | 7 => .wrSampleV7 i d

theorem wrSample_wellFormed (v : VoiceId) (i : BitVec 20) (d : Word) : (wrSample v i d).wellFormed = true := by
  fin_cases v <;> rfl

theorem encode_wrSample (v : VoiceId) (i : BitVec 20) (d : Word) :
    encode (wrSample v i d) = .busW (sampleAddr (BitVec.ofNat 4 (v.val + 1)) i) d := by
  fin_cases v <;> rfl

theorem exec_wrSample (v : VoiceId) (i : BitVec 20) (d : Word) (s : State) :
    exec (wrSample v i d) s = .next (s.storeSample v i d) := by
  fin_cases v <;> rfl

theorem perform_sampleWrite (v : VoiceId) (i : BitVec 20) (d : Word) (s : State) :
    perform (.busW (sampleAddr (BitVec.ofNat 4 (v.val + 1)) i) d) s = .next (s.storeSample v i d) := by
  rw [← encode_wrSample, perform_encode (wrSample_wellFormed v i d), exec_wrSample]

/-! ## Runs without a record -/

/-- The events run from `s` without a record, to a state that satisfies `P`. -/
def RunsSilently (P : State → Prop) (xs : List Input) (s : State) : Prop :=
  ∃ t, runEvents xs s = some (t, []) ∧ P t

theorem RunsSilently.nil {P : State → Prop} {s : State} (h : P (s.present [])) : RunsSilently P [] s :=
  ⟨s.present [], rfl, h⟩

theorem RunsSilently.cons {P : State → Prop} {x : Input} {xs : List Input} {s u : State}
    (hx : perform x (s.takeInput xs) = .next u) (hout : u.out = []) (h : RunsSilently P xs u) :
    RunsSilently P (x :: xs) s := by
  obtain ⟨t, hrun, ht⟩ := h
  refine ⟨t, ?_, ht⟩
  rw [runEvents_cons hx, hrun, hout]
  rfl

/-! ## What a load has done so far -/

/-- Voice `v` is `vc`, and its first samples are `xs`, on a machine of `n` samples. -/
structure HoldsSamples (v : VoiceId) (n : Nat) (vc : Voice) (xs : List Sample) (s : State) : Prop where
  maxSamples : s.params.maxSamples = n
  voice : s.voice v = vc
  samples : ∀ (j : Nat) (h : j < xs.length), s.sample v (BitVec.ofNat 20 j) = xs[j]

section
variable {v : VoiceId} {n : Nat} {vc : Voice} {xs : List Sample} {s : State}

theorem HoldsSamples.takeInput (h : HoldsSamples v n vc xs s) (rest : List Input) :
    HoldsSamples v n vc xs (s.takeInput rest) :=
  ⟨h.maxSamples, h.voice, h.samples⟩

theorem HoldsSamples.setVoice (h : HoldsSamples v n vc xs s) (vc' : Voice) :
    HoldsSamples v n vc' xs (s.setVoice v vc') :=
  ⟨h.maxSamples, s.voice_setVoice_self v vc', h.samples⟩

theorem ofNat_index_ne_of_lt {j k : Nat} (hjk : j < k) (hk : k < 2 ^ 20) :
    BitVec.ofNat 20 j ≠ BitVec.ofNat 20 k := by
  intro h
  have hnat := congrArg BitVec.toNat h
  rw [BitVec.toNat_ofNat, BitVec.toNat_ofNat, Nat.mod_eq_of_lt (hjk.trans hk), Nat.mod_eq_of_lt hk] at hnat
  omega

/-- The next sample is stored behind the ones that are there. -/
theorem HoldsSamples.append (h : HoldsSamples v n vc xs s) (hlen : xs.length < 2 ^ 20) (x : Sample) :
    HoldsSamples v n vc (xs ++ [x]) (s.setSample v (BitVec.ofNat 20 xs.length) x) := by
  refine ⟨h.maxSamples, h.voice, fun j hj => ?_⟩
  rw [List.length_append, List.length_singleton, Nat.lt_succ_iff_lt_or_eq] at hj
  rcases hj with hj | rfl
  · rw [s.sample_setSample_other v v _ _ x fun he => ofNat_index_ne_of_lt hj hlen he.2, h.samples j hj,
      List.getElem_append_left hj]
  · rw [s.sample_setSample_self, List.getElem_concat_length]
    rfl

theorem HoldsSamples.storeSample_eq (h : HoldsSamples v n vc xs s) (hoff : vc.enabled = false)
    (hlen : xs.length < n) (hn : n ≤ 2 ^ 20) (x : Sample) :
    s.storeSample v (BitVec.ofNat 20 xs.length) (0#16 ++ x) = s.setSample v (BitVec.ofNat 20 xs.length) x := by
  have hindex : (BitVec.ofNat 20 xs.length).toNat < s.params.maxSamples := by
    rw [BitVec.toNat_ofNat, h.maxSamples, Nat.mod_eq_of_lt (by omega)]
    exact hlen
  have hword : (0#16 ++ x).extractLsb' 0 16 = x := BitVec.extractLsb'_append_eq_right
  rw [State.storeSample, if_pos ⟨hindex, h.voice ▸ hoff⟩, hword]

theorem HoldsSamples.perform_vlen (h : HoldsSamples v n vc xs s) (hoff : vc.enabled = false) (d : Word) :
    perform (.busW (voiceRegAddr v 1) d) s = .next (s.setVoice v { vc with length := clampVlen n d }) := by
  obtain ⟨rfl, rfl, -⟩ := h
  exact (perform_encode (i := .wrVlen v d) rfl s).trans (execWrVlen_of_disabled hoff d)

theorem HoldsSamples.perform_vgain (h : HoldsSamples v n vc xs s) (d : Word) :
    perform (.busW (voiceRegAddr v 2) d) s = .next (s.setVoice v { vc with gain := clampGain d }) := by
  obtain ⟨-, rfl, -⟩ := h
  exact perform_encode (i := .wrVgain v d) rfl s

theorem HoldsSamples.perform_vpan (h : HoldsSamples v n vc xs s) (d : Word) :
    perform (.busW (voiceRegAddr v 3) d) s = .next (s.setVoice v { vc with panIndex := clampPan d }) := by
  obtain ⟨-, rfl, -⟩ := h
  exact perform_encode (i := .wrVpan v d) rfl s

theorem HoldsSamples.perform_vctrl (h : HoldsSamples v n vc xs s) (hoff : vc.enabled = false)
    (hlen : 1 ≤ vc.length.toNat) :
    perform (.busW (voiceRegAddr v 0) 1) s = .next (s.setVoice v { vc with enabled := true }) := by
  obtain ⟨-, rfl, -⟩ := h
  exact (perform_encode (i := .wrVctrl v 1) rfl s).trans (execWrVctrl_of_loaded rfl hoff hlen)

end

/-! ## The two parts of the sequence -/

/-- The sample writes of `load`, from index `k`. -/
def sampleWrites (v : VoiceId) (k : Nat) (xs : List Sample) : List Input :=
  (xs.zipIdx k).map fun y =>
    .busW (sampleAddr (BitVec.ofNat 4 (v.val + 1)) (BitVec.ofNat 20 y.2)) (0#16 ++ y.1)

/-- Each sample write stores its sample behind those that are there: by induction on the samples still to come. -/
theorem runsSilently_sampleWrites {P : State → Prop} {v : VoiceId} {n : Nat} {vc : Voice} {rest : List Input}
    (hoff : vc.enabled = false) (hn : n ≤ 2 ^ 20) (xs : List Sample) :
    ∀ (ys : List Sample) (s : State), HoldsSamples v n vc ys s → ys.length + xs.length ≤ n →
      (∀ u, HoldsSamples v n vc (ys ++ xs) u → RunsSilently P rest u) →
      RunsSilently P (sampleWrites v ys.length xs ++ rest) s := by
  induction xs with
  | nil => exact fun ys s h _ hrest => hrest s (by rwa [List.append_nil])
  | cons x xs ih =>
    intro ys s h hlen hrest
    rw [List.length_cons] at hlen
    have hs := h.takeInput (sampleWrites v (ys.length + 1) xs ++ rest)
    have hfirst := (perform_sampleWrite v (BitVec.ofNat 20 ys.length) (0#16 ++ x) _).trans
      (congrArg _ (hs.storeSample_eq hoff (by omega) hn x))
    refine RunsSilently.cons hfirst rfl ?_
    have htail := ih (ys ++ [x]) _ (hs.append (by omega) x) (by simp; omega)
      (by rwa [List.append_assoc, List.singleton_append])
    rwa [List.length_append] at htail

/-- A write that sets voice `v` to `vc'` is one event of a silent run. -/
theorem HoldsSamples.runsSilently_cons {P : State → Prop} {v : VoiceId} {n : Nat} {vc vc' : Voice}
    {xs : List Sample} {s : State} {x : Input} {rest : List Input} (h : HoldsSamples v n vc xs s)
    (hx : ∀ u, HoldsSamples v n vc xs u → perform x u = .next (u.setVoice v vc'))
    (hrest : ∀ u, HoldsSamples v n vc' xs u → RunsSilently P rest u) : RunsSilently P (x :: rest) s :=
  have hs := h.takeInput rest
  RunsSilently.cons (hx _ hs) rfl (hrest _ (hs.setVoice vc'))

/-- The registers in the order of `load`: the enable comes last and finds a length (30_encoding.md R84). -/
theorem runsSilently_registerWrites {v : VoiceId} {n : Nat} {vc : Voice} {xs : List Sample} {s : State}
    (h : HoldsSamples v n vc xs s) (hoff : vc.enabled = false) {len : Word} (hlen : 1 ≤ (clampVlen n len).toNat)
    (gain pan : Word) :
    RunsSilently (HoldsSamples v n { vc with
        enabled := true, length := clampVlen n len, gain := clampGain gain, panIndex := clampPan pan } xs)
      [.busW (voiceRegAddr v 1) len, .busW (voiceRegAddr v 2) gain, .busW (voiceRegAddr v 3) pan,
        .busW (voiceRegAddr v 0) 1] s :=
  h.runsSilently_cons (fun _ h => h.perform_vlen hoff len) fun _ h =>
    h.runsSilently_cons (fun _ h => h.perform_vgain gain) fun _ h =>
    h.runsSilently_cons (fun _ h => h.perform_vpan pan) fun _ h =>
    h.runsSilently_cons (fun _ h => h.perform_vctrl hoff hlen) fun _ h =>
    .nil ⟨h.maxSamples, h.voice, h.samples⟩

theorem clampVlen_ofNat {k n : Nat} (hk : k ≤ n) (hn : n ≤ 2 ^ 20) :
    clampVlen n (BitVec.ofNat 32 k) = BitVec.ofNat 21 k := by
  rw [clampVlen, BitVec.toNat_ofNat, Nat.mod_eq_of_lt (by omega), Nat.min_eq_left hk]

theorem loadEvents_eq (v : VoiceId) (xs : List Sample) (gain pan : Word) :
    loadEvents v xs gain pan = sampleWrites v 0 xs ++
      [.busW (voiceRegAddr v 1) (BitVec.ofNat 32 xs.length), .busW (voiceRegAddr v 2) gain,
        .busW (voiceRegAddr v 3) pan, .busW (voiceRegAddr v 0) 1] := rfl

/-- Settles O43: the sample writes, then the register writes, from a voice that holds no sample yet. -/
theorem loadSequenceLoadsVoice : Obligations.LoadSequenceLoadsVoice := by
  intro s v xs gain pan hoff hpos hlen hmax
  have hstart : HoldsSamples v s.params.maxSamples (s.voice v) [] s := ⟨rfl, rfl, nofun⟩
  have hlength : clampVlen s.params.maxSamples (BitVec.ofNat 32 xs.length) = BitVec.ofNat 21 xs.length :=
    clampVlen_ofNat hlen hmax
  have hloaded : 1 ≤ (clampVlen s.params.maxSamples (BitVec.ofNat 32 xs.length)).toNat := by
    rw [hlength, BitVec.toNat_ofNat, Nat.mod_eq_of_lt (by omega)]
    exact hpos
  obtain ⟨t, hrun, ht⟩ := runsSilently_sampleWrites hoff hmax xs [] s hstart (by simpa using hlen)
    fun u hu => runsSilently_registerWrites hu hoff hloaded gain pan
  exact ⟨t, loadEvents_eq v xs gain pan ▸ hrun, ht.samples, hlength ▸ ht.voice⟩

end Sys2Proof.Machine
end


section
/-! PROOFS. No step faults and none is refused (60_exceptions.md R200). -/

namespace Sys2Proof.Machine

/-- Settles O7: with no event presented the block idles, and every event has an effect. -/
theorem stepAlwaysAnswersNext : Obligations.StepAlwaysAnswersNext := by
  intro s
  cases hs : s.inputs with
  | nil => exact ⟨s.idle, step_of_inputs_nil hs⟩
  | cons x rest =>
    obtain ⟨t, ht, -⟩ := perform_hasEffect x (s.takeInput rest)
    exact ⟨t, (step_of_inputs_cons hs).trans ht⟩

end Sys2Proof.Machine
end

section
/-! PROOFS. Two rules of 70_reset_and_hazards.md: a stopped external transport never ticks by
itself (R231), and an enabled voice is locked until the reset (R227). Each is an invariant that every effect of
the events in question keeps. -/

namespace Sys2Proof.Machine

/-! ## The stopped external transport -/

/-- A transport that only a START or the reset gets to tick: external and stopped, under the default gate. -/
structure StoppedExternal (s : State) : Prop where
  gate : s.params.clockGate = .modeInternal
  mode : s.tp.mode = .external
  stopped : s.tp.running = false

theorem StoppedExternal.internalTickDue_eq_false {s : State} (h : StoppedExternal s) :
    internalTickDue s = false := by
  have hclosed : clockGateOpen s.params.clockGate s.tp = false := by
    rw [h.gate, clockGateOpen, h.mode]
    rfl
  rw [internalTickDue, hclosed, Bool.false_and, Bool.false_and]

theorem tickCount_render (s : State) : tickCount s.render.out = tickCount s.out := by
  obtain ⟨-, l, r, hout⟩ := render_only s
  rw [hout, tickCount_append]
  rfl

/-- The effects that run a transport or tick are those of a running transport, of an open gate, of START and of
the reset. -/
theorem Effect.stopped_without_tick {x : Input} {s t : State} (he : Effect x s t) (h : StoppedExternal s)
    (hstart : carriesStart x = false) (hreset : x ≠ .reset) :
    t.tp.running = false ∧ tickCount t.out = tickCount s.out := by
  have hrunning (hrun : s.tp.running = true) : False := Bool.false_ne_true (h.stopped.symm.trans hrun)
  cases he
  case pulse hrun => exact (hrunning hrun).elim
  case pulseTick hrun => exact (hrunning hrun).elim
  case start hx => exact absurd (hstart.symm.trans hx) Bool.false_ne_true
  case strobeTick hdue =>
    have hstrobed : StoppedExternal s.strobed := ⟨h.gate, h.mode, h.stopped⟩
    exact absurd (hstrobed.internalTickDue_eq_false.symm.trans hdue) Bool.false_ne_true
  case reset hx => exact absurd hx hreset
  case trigger v => exact ⟨h.stopped, tickCount_trigger s v⟩
  case render => exact ⟨(congrArg _ (render_only s).1.tp).trans h.stopped, tickCount_render s⟩
  case stop => exact ⟨rfl, rfl⟩
  all_goals exact ⟨h.stopped, rfl⟩

theorem Effect.stoppedExternal {x : Input} {s t : State} (he : Effect x s t) (h : StoppedExternal s)
    (hstart : carriesStart x = false) (hreset : x ≠ .reset) : StoppedExternal t where
  gate := he.params_inputs.1 ▸ h.gate
  mode := (he.mode_eq hstart hreset).trans h.mode
  stopped := (he.stopped_without_tick h hstart hreset).1

theorem StoppedExternal.runsTicking {xs : List Input} (hxs : ∀ x ∈ xs, carriesStart x = false ∧ x ≠ .reset)
    {s : State} (h : StoppedExternal s) : ∃ t, RunsTicking 0 xs s t ∧ StoppedExternal t := by
  induction xs generalizing s with
  | nil => exact ⟨s.present [], .nil s, h.gate, h.mode, h.stopped⟩
  | cons x xs ih =>
    obtain ⟨⟨hstart, hreset⟩, hrest⟩ := List.forall_mem_cons.mp hxs
    obtain ⟨u, hu, he⟩ := perform_hasEffect x (s.takeInput xs)
    have hs : StoppedExternal (s.takeInput xs) := ⟨h.gate, h.mode, h.stopped⟩
    obtain ⟨t, hrun, ht⟩ := ih hrest (he.stoppedExternal hs hstart hreset)
    have hsilent : tickCount u.out = 0 := (he.stopped_without_tick hs hstart hreset).2
    have hfirst := RunsTicking.cons hu hrun
    rw [hsilent] at hfirst
    exact ⟨t, hfirst, ht⟩

/-- Settles O32: `StoppedExternal` holds along the whole run, and no event of it ticks. -/
theorem stoppedExternalNeverTicks : Obligations.StoppedExternalNeverTicks := by
  intro xs s hgate hmode hstopped hxs
  obtain ⟨t, ⟨rs, hrun, hticks⟩, ht⟩ := StoppedExternal.runsTicking hxs ⟨hgate, hmode, hstopped⟩
  exact ⟨t, rs, hrun, hticks, ht.stopped, ht.mode⟩

/-! ## What plays a voice keeps its length -/

@[simp] theorem triggerVoice_length (vc : Voice) (w : Sample) : (triggerVoice vc w).1.length = vc.length := by
  unfold triggerVoice
  split
  · split <;> rfl
  · rfl

@[simp] theorem decayStep_length (floor : F32) (vc : Voice) : (decayStep floor vc).1.length = vc.length := by
  rw [decayStep_eq]
  rfl

@[simp] theorem playStep_length (vc : Voice) (acc : F32) (w : Sample) :
    (playStep vc acc w).1.length = vc.length := by
  unfold playStep
  dsimp only
  split <;> rfl

@[simp] theorem voiceSample_length (floor : F32) (vc : Voice) (w : Sample) :
    (voiceSample floor vc w).1.length = vc.length := by
  unfold voiceSample
  dsimp only
  split
  · split
    · rw [playStep_length, decayStep_length]
    · rw [decayStep_length]
  · rfl

/-! ## What each operation keeps of a voice's load -/

/-- Voice `v` is as enabled in `t` as in `s`, with the same length and the same samples. -/
structure KeepsLoad (v : VoiceId) (s t : State) : Prop where
  enabled : (t.voice v).enabled = (s.voice v).enabled
  length : (t.voice v).length = (s.voice v).length
  samples : ∀ i, t.sample v i = s.sample v i

namespace KeepsLoad

variable {v : VoiceId} {s t u : State}

theorem refl (v : VoiceId) (s : State) : KeepsLoad v s s := ⟨rfl, rfl, fun _ => rfl⟩

theorem trans (h : KeepsLoad v s t) (h' : KeepsLoad v t u) : KeepsLoad v s u :=
  ⟨h'.enabled.trans h.enabled, h'.length.trans h.length, fun i => (h'.samples i).trans (h.samples i)⟩

/-- The load is in the voice and the sample memory alone. -/
theorem of_same (hv : t.voices = s.voices) (hm : t.mem = s.mem) (he : t.ramEpoch = s.ramEpoch) :
    KeepsLoad v s t := by
  have hvoice : t.voice v = s.voice v := congrArg (·[v]) hv
  exact ⟨congrArg _ hvoice, congrArg _ hvoice, State.sample_congr hm he v⟩

theorem setVoice_other {w : VoiceId} (h : v ≠ w) (vc : Voice) : KeepsLoad v s (s.setVoice w vc) := by
  have hvoice := s.voice_setVoice_other w v vc h
  exact ⟨congrArg _ hvoice, congrArg _ hvoice, s.sample_setVoice w vc v⟩

/-- A write of a voice that leaves its two load fields alone. -/
theorem setVoice {w : VoiceId} {vc : Voice} (henabled : vc.enabled = (s.voice w).enabled)
    (hlength : vc.length = (s.voice w).length) : KeepsLoad v s (s.setVoice w vc) := by
  by_cases h : v = w
  · subst h
    have hvoice := s.voice_setVoice_self v vc
    exact ⟨(congrArg _ hvoice).trans henabled, (congrArg _ hvoice).trans hlength, s.sample_setVoice v vc v⟩
  · exact setVoice_other h vc

theorem setSample_other {w : VoiceId} (h : v ≠ w) (i : BitVec 20) (x : Sample) :
    KeepsLoad v s (s.setSample w i x) :=
  ⟨rfl, rfl, fun j => s.sample_setSample_other w v i j x fun he => h he.1⟩

theorem trigger (w : VoiceId) : KeepsLoad v s (s.trigger w) :=
  (setVoice (triggerVoice_enabled _ _) (triggerVoice_length _ _)).trans
    (of_same (State.emit_voices _ _) (State.emit_mem _ _) (State.emit_ramEpoch _ _))

theorem tick : KeepsLoad v s s.tick := by
  have hturns := foldl_tickTrack_induction (P := KeepsLoad v s) (fun _ _ h => h.trans (of_same rfl rfl rfl))
    (fun _ w h => h.trans (trigger w)) s.tp.stepCounter trackIds (s := s.emit (.tick s.tp.stepCounter))
    (of_same rfl rfl rfl)
  exact hturns.trans (of_same rfl rfl rfl)

/-- A tick after a write of the transport, the time base or the tracks. -/
theorem tick_of_same (hv : t.voices = s.voices) (hm : t.mem = s.mem) (he : t.ramEpoch = s.ramEpoch) :
    KeepsLoad v s t.tick :=
  (of_same hv hm he).trans tick

theorem render : KeepsLoad v s s.render := by
  obtain ⟨honly, -⟩ := render_only s
  refine ⟨render_enabled s v, ?_, State.sample_congr honly.mem honly.ramEpoch v⟩
  rw [voice_render, State.sampled, voiceSample_length]

end KeepsLoad

/-- Of the effects only the reset changes the load of an enabled voice: the enable, the length and the samples are
written in a disabled voice (44_host_bus.md R173, R174, R176). -/
theorem Effect.keepsLoad {x : Input} {s t : State} {v : VoiceId} (he : Effect x s t)
    (hon : (s.voice v).enabled = true) (hreset : x ≠ .reset) : KeepsLoad v s t := by
  have hother {w : VoiceId} (hoff : (s.voice w).enabled = false) : v ≠ w := fun hvw =>
    Bool.false_ne_true (hoff.symm.trans (hvw ▸ hon))
  cases he
  case enable w _ _ _ hoff _ => exact .setVoice_other (hother hoff) _
  case setLength w _ hoff => exact .setVoice_other (hother hoff) _
  case setSample w i y _ hoff => exact .setSample_other (hother hoff) i y
  case setGain => exact .setVoice rfl rfl
  case setPan => exact .setVoice rfl rfl
  case trigger w => exact .trigger w
  case pulseTick => exact .tick_of_same rfl rfl rfl
  case strobeTick => exact .tick_of_same rfl rfl rfl
  case start =>
    exact .tick_of_same (foldl_rewind_voices _ _) (foldl_rewind_only _ _).mem (foldl_rewind_only _ _).ramEpoch
  case render => exact .render
  case reset hx => exact absurd hx hreset
  all_goals exact .of_same rfl rfl rfl

/-! ## The locked voice -/

theorem storeSample_of_enabled {v : VoiceId} {s : State} (hon : (s.voice v).enabled = true) (i : BitVec 20)
    (d : Word) : s.storeSample v i d = s := by
  rcases storeSample_cases s v i d with ⟨-, hoff, -⟩ | ⟨-, hhold⟩
  · exact absurd (hoff.symm.trans hon) Bool.false_ne_true
  · exact hhold

/-- The window of voice `v` starts at word `(v + 1) * 2^20` (20_memory.md R64). -/
theorem sampleAddr_eq_ofNat (v : VoiceId) (i : BitVec 20) :
    sampleAddr (BitVec.ofNat 4 (v.val + 1)) i = BitVec.ofNat 24 ((v.val + 1) * 2 ^ 20 + i.toNat) := by
  have hv : v.val < 8 := v.isLt
  refine eq_ofNat_of_toNat_eq ?_
  rw [sampleAddr, toNat_append_eq_add, BitVec.toNat_ofNat, Nat.mod_eq_of_lt (by omega),
    Nat.mul_comm]

theorem voiceRegAddr_vlen (v : VoiceId) : voiceRegAddr v 1 = BitVec.ofNat 24 (0x101 + 8 * v.val) :=
  eq_ofNat_of_toNat_eq ((voiceRegAddr_toNat v 1).trans (Nat.add_right_comm _ _ _))

/-- Settles O41: the two writes end in rows that ignore an enabled voice, and every event but the reset keeps its
load. -/
theorem enabledVoiceIsLocked : Obligations.EnabledVoiceIsLocked := by
  refine fun s v hon => ⟨fun i d => ?_, fun d => ?_, fun x t hreset h => ?_⟩
  · rw [← sampleAddr_eq_ofNat, perform_sampleWrite, storeSample_of_enabled hon]
  · rw [← voiceRegAddr_vlen]
    exact (perform_encode (i := .wrVlen v d) rfl s).trans (execWrVlen_of_enabled hon d)
  · have hload := (effect_of_perform h).keepsLoad hon hreset
    exact ⟨hload.enabled.trans hon, hload.length, hload.samples⟩

end Sys2Proof.Machine
end
